-- ==== Sys2Proof/Word.lean ====
section
/-! DEFINITION. The word types of the block: bytes of a bus lane, 32-bit registers and SR words, 64-bit TF and seed
words (00_scope.md R6, R7). -/

namespace Sys2Proof

/-- One byte lane of the register bus (20_memory.md R65). -/
abbrev Byte := BitVec 8

/-- A register, an SR state word or a sample word (00_scope.md R6, W_SR = 32). -/
abbrev W32 := BitVec 32

/-- A TF state word or a seed word (00_scope.md R6, W_TF = 64). -/
abbrev W64 := BitVec 64

end Sys2Proof
end

