-- ==== Sys2Proof/Config.lean ====
section
/-! DEFINITION. What this hardware fixes (00_scope.md R6) and what the spec leaves open: BASE and the free values of
contents that the spec calls unspecified. -/

namespace Sys2Proof.Config

/-- BASE is a platform parameter, a multiple of 64 (20_memory.md R61, decision D2). No body: BASE is `64 * windowIndex`
for an index nothing in Lean can evaluate. Log entry 6. -/
opaque windowIndex : Nat

/-- BASE, the byte address of the register window (20_memory.md R61). -/
def base : Nat := 64 * windowIndex

/-- The window is 64 bytes long (00_scope.md R6). -/
def windowBytes : Nat := 64

/-- ID (10_state.md R31). -/
def idValue : W32 := 0x524E4707#32

/-- PARAM0: N_SR = 16 and N_TF = 312 (10_state.md R32). -/
def param0Value : W32 := 0x00100138#32

/-- PARAM1: M_TF = 156 and SEED_CAP = 312 (10_state.md R33). -/
def param1Value : W32 := 0x009C0138#32

/-- REJECT_CAP, the raw draws one sampling command may consume (10_state.md R44, 42_sampler.md R167). -/
def rejectCap : Nat := 0x100000

/-- THRESH_MAX (00_scope.md R6, 10_state.md R37). -/
def threshMax : W32 := 0x00010000#32

/-- The key that stands for an absent or empty seed (40_seeding.md R113, 93_implementation_defined.md U8). -/
def fallbackKey : List W64 := [0#64]

/-- Free value: V[k] after the n-th hardware reset and before the RESEED step (70_reset_and_hazards.md R231,
93_implementation_defined.md U2). Log entry 4. -/
opaque freeSrWord : Nat → Nat → W32

/-- Free value: SR_IDX after the n-th hardware reset and before the RESEED step (R231, U2). Log entry 4. -/
opaque freeSrCursor : Nat → Fin 16

/-- Free value: MT[k] after the n-th hardware reset and before the RESEED step (R231, U2). Log entry 4. -/
opaque freeTfWord : Nat → Nat → W64

/-- Free value: TF_IDX after the n-th hardware reset and before the RESEED step (R231, U2). Log entry 4. -/
opaque freeTfCursor : Nat → Fin 313

/-- Free value: SEEDBUF[k] after the n-th reset, hardware or soft (R231, 10_state.md R27, U3). Log entry 5. -/
opaque freeSeedWord : Nat → Nat → W64

end Sys2Proof.Config
end

