-- ==== Sys2Proof/Syntax.lean ====
section
/-! DEFINITION. The commands of the block: one constructor per row of spec/opcode_table.json (30_encoding.md R93), and
the family a command selects. -/

namespace Sys2Proof

/-- The generator family a command's FAM bit selects: 0 the SR unit, 1 the TF unit (30_encoding.md R94). -/
inductive Fam where
  | sr
  | tf
  deriving DecidableEq, Repr

/-- The eight commands (30_encoding.md R93). Operands come from the latched snapshot (R95), so the only field a
command carries is its family. -/
inductive Instr where
  /-- NOP, opcode 0x00 (43_control.md R192). -/
  | nop
  /-- SEED_CLEAR, opcode 0x01 (40_seeding.md R110). -/
  | seedClear
  /-- SEED_PUSH, opcode 0x02 (40_seeding.md R111). -/
  | seedPush
  /-- SEED_APPLY, opcode 0x03 (40_seeding.md R112). -/
  | seedApply (f : Fam)
  /-- NEXT_WORD, opcode 0x04 (41_generators.md R141). -/
  | nextWord (f : Fam)
  /-- NEXT_BOUNDED, opcode 0x05 (42_sampler.md R170). -/
  | nextBounded (f : Fam)
  /-- NEXT_BOUNDED_PAIR, opcode 0x06 (42_sampler.md R171). -/
  | nextBoundedPair (f : Fam)
  /-- SOFT_RESET, opcode 0x0F (43_control.md R193). -/
  | softReset
  deriving DecidableEq, Repr

end Sys2Proof
end

