-- ==== Sys2Proof/WellFormed.lean ====
section
/-! DEFINITION. Well-formedness. A command word is legal by three checks (30_encoding.md R92, R99); a term of `Instr`
holds nothing but a family, so every term is well formed. -/

namespace Sys2Proof

/-- RSV, bits 31..9, is 0 (30_encoding.md R91, R92). -/
def reservedBitsZero (c : W32) : Bool := c.extractLsb' 9 23 == 0#23

/-- OPC, bits 7..0, is an opcode of 30_encoding.md R93. -/
def opcodeDefined (c : W32) : Bool :=
  [0x00#8, 0x01#8, 0x02#8, 0x03#8, 0x04#8, 0x05#8, 0x06#8, 0x0F#8].contains (c.extractLsb' 0 8)

/-- FAM, bit 8, is 0 where the FAM column of 30_encoding.md R93 says "must be 0". -/
def familyAllowed (c : W32) : Bool :=
  !([0x00#8, 0x01#8, 0x02#8, 0x0F#8].contains (c.extractLsb' 0 8)) || !(c.getLsbD 8)

/-- Legal(c) of 43_control.md R191: the three checks of 30_encoding.md R92. -/
def legalWord (c : W32) : Bool := reservedBitsZero c && opcodeDefined c && familyAllowed c

/-- Every term is well formed: the combinations R99 makes illegal (a set reserved bit, an undefined opcode, FAM = 1 on
a command without family) are words that no term of `Instr` stands for. -/
def Instr.wf : Instr → Bool
  | .nop => true
  | .seedClear => true
  | .seedPush => true
  | .seedApply _ => true
  | .nextWord _ => true
  | .nextBounded _ => true
  | .nextBoundedPair _ => true
  | .softReset => true

end Sys2Proof
end

