-- ==== Sys2Proof/Decode.lean ====
section
/-! DEFINITION. Decoding of command words, total and rejecting by name, and after it the encoder, both written from
30_encoding.md R91-R94. -/

namespace Sys2Proof

/-- Why a word is no command. The block records each of the first three as ILLEGAL_CMD (30_encoding.md R92, R99). -/
inductive Reject where
  /-- Bits 31..9 are not 0. -/
  | reservedBits
  /-- Bits 7..0 are no opcode of R93. -/
  | reservedOpcode
  /-- FAM = 1 on NOP, SEED_CLEAR, SEED_PUSH or SOFT_RESET. -/
  | familyOnFamilyless
  /-- Fewer than the four bytes of a command word (R90: every command is one 32-bit word). -/
  | notAWord
  deriving DecidableEq, Repr

/-- FAM of a command word: bit 8 (30_encoding.md R91, R94). -/
def famOf (c : W32) : Fam := if c.getLsbD 8 then .tf else .sr

/-- A command whose FAM must be 0 (30_encoding.md R93). -/
def familyless (c : W32) (i : Instr) : Except Reject Instr :=
  if c.getLsbD 8 then .error .familyOnFamilyless else .ok i

/-- The opcode map of 30_encoding.md R93. -/
def decodeOpcode (c : W32) : Except Reject Instr :=
  match (c.extractLsb' 0 8).toNat with
  | 0x00 => familyless c .nop
  | 0x01 => familyless c .seedClear
  | 0x02 => familyless c .seedPush
  | 0x03 => .ok (.seedApply (famOf c))
  | 0x04 => .ok (.nextWord (famOf c))
  | 0x05 => .ok (.nextBounded (famOf c))
  | 0x06 => .ok (.nextBoundedPair (famOf c))
  | 0x0F => familyless c .softReset
  | _ => .error .reservedOpcode

/-- Decoding of a command word, total on all words (30_encoding.md R92). -/
def decode (c : W32) : Except Reject Instr :=
  if c.extractLsb' 9 23 = 0#23 then decodeOpcode c else .error .reservedBits

/-- A register value from its four byte lanes, little-endian: lane k carries bits 8k+7..8k (20_memory.md R65). -/
def wordOfLanes (b0 b1 b2 b3 : Byte) : W32 := b3 ++ b2 ++ b1 ++ b0

/-- Byte lane k of a register value (20_memory.md R65). -/
def lane (c : W32) (k : Nat) : Byte := c.extractLsb' (8 * k) 8

/-- Decoding of the bytes a host writes to CMD, with the bytes left over (20_memory.md R65, 30_encoding.md R90). -/
def decodeBytes : List Byte → Except Reject (Instr × List Byte)
  | b0 :: b1 :: b2 :: b3 :: rest =>
    match decode (wordOfLanes b0 b1 b2 b3) with
    | .ok i => .ok (i, rest)
    | .error e => .error e
  | _ => .error .notAWord

/-- The host's question: the command whose table bits are `w`; bits above `nbits` are 0. -/
def decodeTableWord (nbits w : Nat) : Option Instr :=
  let c : W32 := BitVec.ofNat 32 (w % 2 ^ nbits)
  match decodeBytes [lane c 0, lane c 1, lane c 2, lane c 3] with
  | .ok (i, _) => some i
  | .error _ => none

/-- OPC of a command (30_encoding.md R93). -/
def Instr.opcode : Instr → BitVec 8
  | .nop => 0x00#8
  | .seedClear => 0x01#8
  | .seedPush => 0x02#8
  | .seedApply _ => 0x03#8
  | .nextWord _ => 0x04#8
  | .nextBounded _ => 0x05#8
  | .nextBoundedPair _ => 0x06#8
  | .softReset => 0x0F#8

/-- The FAM bit of a family (30_encoding.md R94). -/
def Fam.bit : Fam → BitVec 1
  | .sr => 0#1
  | .tf => 1#1

/-- FAM of a command; 0 where R93 says it must be 0. -/
def Instr.famBit : Instr → BitVec 1
  | .nop => 0#1
  | .seedClear => 0#1
  | .seedPush => 0#1
  | .seedApply f => f.bit
  | .nextWord f => f.bit
  | .nextBounded f => f.bit
  | .nextBoundedPair f => f.bit
  | .softReset => 0#1

/-- The command word: RSV = 0, FAM, OPC from high to low (30_encoding.md R91). -/
def encode (i : Instr) : W32 := 0#23 ++ i.famBit ++ i.opcode

end Sys2Proof
end

