-- ==== Sys2Proof/Machine/State.lean ====
section
/-! DEFINITION. The state of the block (10_state.md R20), its port and reset pin, the list of events still to happen,
and the reasons a step can stop. -/

namespace Sys2Proof.Machine

/-- The shift-register unit: V[0..15] (10_state.md R22) and SR_IDX, 0..15 (R23). -/
@[ext]
structure SrUnit where
  v : Vector W32 16
  idx : Fin 16
  deriving DecidableEq, Repr

/-- The twisted-feedback unit: MT[0..311] (10_state.md R24) and TF_IDX, 0..312 (R25). -/
@[ext]
structure TfUnit where
  mt : Vector W64 312
  idx : Fin 313
  deriving DecidableEq, Repr

/-- The two generator units, always both present (00_scope.md R3). -/
@[ext]
structure Units where
  sr : SrUnit
  tf : TfUnit
  deriving DecidableEq, Repr

/-- A latched command: the command word and the snapshot taken when its CMD write was accepted (10_state.md R29). -/
structure Latch where
  word : W32
  arg0 : W32
  arg1 : W32
  thresh : W32
  srtemp : Bool
  deriving DecidableEq, Repr

/-- PENDING: empty, the internal RESEED operation, or one latched command (10_state.md R28). -/
inductive Pending where
  | empty
  | reseed
  | command (l : Latch)
  deriving DecidableEq, Repr

/-- The size of a bus access; only `word` is supported (20_memory.md R64). -/
inductive AccessSize where
  | byte
  | half
  | word
  | double
  deriving DecidableEq, Repr

/-- One access the host makes on the register-bus port (20_memory.md R60): byte address, size, byte enables, write
enable and write data. -/
structure Access where
  addr : Nat
  size : AccessSize
  byteEnable : BitVec 4
  write : Bool
  wdata : W32
  deriving DecidableEq, Repr

/-- What can happen next at the block: a host access or an engine turn (20_memory.md R71), a change of the reset pin
(70_reset_and_hazards.md R230), or hardware reset as the one atomic event of R230. -/
inductive Event where
  | access (a : Access)
  | engineTurn
  | rstLow
  | rstHigh
  | reset
  deriving DecidableEq, Repr

/-- The whole state. The fields down to `pending` are the architectural state of 10_state.md R20; `rstN` and `rdata`
are the pin and the read data of the port (20_memory.md R60); `inputs` and `freeCount` are the model's own (log
entries 1 and 4). -/
@[ext]
structure State where
  /-- V, SR_IDX, MT, TF_IDX. -/
  units : Units
  /-- SEEDBUF[0..311] (R27). -/
  seedBuf : Vector W64 312
  /-- SEEDLEN, 0..312 (R27). -/
  seedLen : Fin 313
  /-- SEED_TRUNC (R27). -/
  seedTrunc : Bool
  /-- CTRL[0]; the other bits of CTRL are reserved and read 0 (R34). -/
  srtemp : Bool
  /-- THRESH (R37). -/
  thresh : W32
  /-- ARG0 (R39). -/
  arg0 : W32
  /-- ARG1 (R40). -/
  arg1 : W32
  /-- RES0 (R41). -/
  res0 : W32
  /-- RES1 (R42). -/
  res1 : W32
  /-- LASTDRAWS[20:0] (R45). -/
  lastDraws : BitVec 21
  /-- STATUS.ERR (R35). -/
  err : Bool
  /-- STATUS.ERRCODE (R35). -/
  errCode : BitVec 4
  /-- BUSY (R28). -/
  busy : Bool
  /-- PENDING (R28). -/
  pending : Pending
  /-- The level of rst_n; true is 1, not in reset (70_reset_and_hazards.md R230). -/
  rstN : Bool
  /-- The read data the port gave for the last read access (20_memory.md R60). Log entry 10. -/
  rdata : W32
  /-- The events still to happen, in order. Model's own: log entry 1. -/
  inputs : List Event
  /-- How many resets have drawn free values. Model's own: log entry 4. -/
  freeCount : Nat
  deriving DecidableEq, Repr

/-- Why the machine stops with a fault. -/
inductive Fault where
  /-- Raised by a bus access whose address is outside BASE + 0x00 .. BASE + 0x3F (20_memory.md R61, R69). Safe: the
  model stops where the platform would not have selected the block. Log entry 9. -/
  | outsideWindow
  deriving DecidableEq, Repr

/-- Why a step has no meaning. -/
inductive Refusal where
  /-- Raised by exec's arm of an instruction that has no meaning yet. Safe: the model stops. -/
  | notModelled (mnemonic : String)
  /-- Raised by a bus access that is not an aligned 32-bit access with all byte enables set (20_memory.md R64,
  93_implementation_defined.md U1). Safe: the model stops. -/
  | unsupportedAccess
  /-- Raised by a bus access while rst_n = 0 (70_reset_and_hazards.md R230, U5). Safe: the model stops. -/
  | accessDuringReset
  deriving DecidableEq, Repr

/-- The machine right after hardware reset: registers, PENDING and BUSY as 70_reset_and_hazards.md R231 gives them.
The contents R231 leaves unspecified (V, SR_IDX, MT, TF_IDX, SEEDBUF) are zeros here, a DESIGN CHOICE (log entry 3). -/
def State.reset : State where
  units := { sr := { v := Vector.replicate 16 0#32, idx := 0 }
             tf := { mt := Vector.replicate 312 0#64, idx := 0 } }
  seedBuf := Vector.replicate 312 0#64
  seedLen := 0
  seedTrunc := false
  srtemp := true
  thresh := 0x00008000#32
  arg0 := 0#32
  arg1 := 0#32
  res0 := 0#32
  res1 := 0#32
  lastDraws := 0#21
  err := false
  errCode := 0#4
  busy := true
  pending := .reseed
  rstN := true
  rdata := 0#32
  inputs := []
  freeCount := 0

end Sys2Proof.Machine
end

