-- ==== Sys2Proof/Machine/Ops.lean ====
section
/-! DEFINITION. The named operations over the stores and the registers, recording an error and clearing it, the
lifecycle of a latched command, and ResetState. -/

namespace Sys2Proof.Machine

/-- Word k of a store. The rules index only inside the store; outside it the model reads 0. -/
def readWord {w n : Nat} (a : Vector (BitVec w) n) (k : Nat) : BitVec w := if h : k < n then a[k] else 0#w

/-- Store with word k replaced. The rules index only inside the store; outside it nothing is written. -/
def writeWord {w n : Nat} (a : Vector (BitVec w) n) (k : Nat) (x : BitVec w) : Vector (BitVec w) n :=
  if h : k < n then a.set k x h else a

/-- The loop `for k in i .. i + n - 1`: ascending and sequential (00_scope.md R10). -/
def loopFrom {α : Type} (body : Nat → α → α) : (i n : Nat) → α → α
  | _, 0, a => a
  | i, n + 1, a => loopFrom body (i + 1) n (body i a)

/-- The loop `repeat n times` (00_scope.md R10). -/
def repeatTimes {α : Type} (body : α → α) : (n : Nat) → α → α
  | 0, a => a
  | n + 1, a => repeatTimes body n (body a)

/-- Replace the generator units. -/
def State.setUnits (s : State) (u : Units) : State := { s with units := u }

/-- LASTDRAWS <- n; n is at most REJECT_CAP = 2^20 and fits in 21 bits (10_state.md R45). -/
def State.setLastDraws (s : State) (n : Nat) : State := { s with lastDraws := BitVec.ofNat 21 n }

/-- RES0 and RES1, written together (20_memory.md R67). -/
def State.setResults (s : State) (r0 r1 : W32) : State := { s with res0 := r0, res1 := r1 }

/-- CTRL.SRTEMP (10_state.md R34). -/
def State.setSrtemp (s : State) (b : Bool) : State := { s with srtemp := b }

/-- THRESH (10_state.md R37). -/
def State.setThresh (s : State) (t : W32) : State := { s with thresh := t }

/-- ARG0 (10_state.md R39). -/
def State.setArg0 (s : State) (x : W32) : State := { s with arg0 := x }

/-- ARG1 (10_state.md R40). -/
def State.setArg1 (s : State) (x : W32) : State := { s with arg1 := x }

/-- The read data the port answers with (20_memory.md R60, R62). -/
def State.setRdata (s : State) (x : W32) : State := { s with rdata := x }

/-- The level of rst_n (70_reset_and_hazards.md R230). -/
def State.setRstN (s : State) (b : Bool) : State := { s with rstN := b }

/-- The events still to happen (log entry 1). -/
def State.setInputs (s : State) (es : List Event) : State := { s with inputs := es }

/-- SEEDLEN <- 0; SEED_TRUNC <- 0; the entries keep unobservable values (40_seeding.md R110). -/
def State.clearSeed (s : State) : State := { s with seedLen := 0, seedTrunc := false }

/-- Append a word, or set SEED_TRUNC when the buffer is full (40_seeding.md R111). -/
def State.pushSeed (s : State) (w : W64) : State :=
  if s.seedLen.val < 312 then
    { s with seedBuf := writeWord s.seedBuf s.seedLen.val w, seedLen := Fin.ofNat 313 (s.seedLen.val + 1) }
  else { s with seedTrunc := true }

/-- The errors of 60_exceptions.md R200. -/
inductive ErrorCause where
  | illegalCmd
  | invalidBound
  | invalidPair
  | rejectCapExceeded
  | overrun
  deriving DecidableEq, Repr

/-- The code of an error (60_exceptions.md R200). -/
def ErrorCause.code : ErrorCause → BitVec 4
  | .illegalCmd => 1#4
  | .invalidBound => 2#4
  | .invalidPair => 3#4
  | .rejectCapExceeded => 4#4
  | .overrun => 5#4

/-- Recording an error, the block's whole exception entry: ERR <- 1; ERRCODE <- code (60_exceptions.md R201, R211). -/
def State.raise (s : State) (e : ErrorCause) : State := { s with err := true, errCode := e.code }

/-- Clearing the error, the host's "return" from it (10_state.md R36, 60_exceptions.md R212). -/
def State.clearError (s : State) : State := { s with err := false, errCode := 0#4 }

/-- Latch a command: PENDING <- the command; BUSY <- 1 (43_control.md R190). -/
def State.latchCommand (s : State) (l : Latch) : State := { s with pending := .command l, busy := true }

/-- Completion: PENDING <- empty; BUSY <- 0 (43_control.md R191, last line). -/
def State.complete (s : State) : State := { s with pending := .empty, busy := false }

/-- The unspecified contents of SEEDBUF after the n-th reset (R231, 10_state.md R27, U3; log entry 5). -/
@[irreducible] def unspecifiedSeedBuf (n : Nat) : Vector W64 312 := Vector.ofFn fun k : Fin 312 => Config.freeSeedWord n k.val

/-- ResetState() of 70_reset_and_hazards.md R231. The entries of SEEDBUF, unspecified there, become free values (log
entry 5); V, SR_IDX, MT and TF_IDX are left to the caller. -/
def resetState (s : State) : State :=
  { s with
    seedBuf := unspecifiedSeedBuf s.freeCount
    seedLen := 0
    seedTrunc := false
    srtemp := true
    thresh := 0x00008000#32
    arg0 := 0#32
    arg1 := 0#32
    res0 := 0#32
    res1 := 0#32
    lastDraws := 0#21
    err := false
    errCode := 0#4
    busy := false
    pending := .empty
    freeCount := s.freeCount + 1 }

/-- The unspecified contents of the generator units after the n-th hardware reset (R231, U2; log entry 4). -/
@[irreducible] def unspecifiedUnits (n : Nat) : Units where
  sr := { v := Vector.ofFn fun k : Fin 16 => Config.freeSrWord n k.val, idx := Config.freeSrCursor n }
  tf := { mt := Vector.ofFn fun k : Fin 312 => Config.freeTfWord n k.val, idx := Config.freeTfCursor n }

/-- Reset() of 70_reset_and_hazards.md R231: ResetState, then PENDING <- RESEED and BUSY <- 1; rst_n is 1 again (R230).
It discards any pending command. -/
def hardReset (s : State) : State :=
  { resetState s with
    units := unspecifiedUnits s.freeCount
    pending := .reseed
    busy := true
    rstN := true }

end Sys2Proof.Machine
end

