-- ==== Sys2Proof/Machine/Operands.lean ====
section
/-! DEFINITION. Operand forms: the snapshot a command uses, the assembly of its operands and the placement of 64-bit
values over two registers (30_encoding.md R95-R98, 20_memory.md R66). -/

namespace Sys2Proof.Machine

/-- The latched command of a CMD write of word c: c with ARG0, ARG1, THRESH and CTRL.SRTEMP (10_state.md R29,
43_control.md R190). -/
def State.snapshot (s : State) (c : W32) : Latch where
  word := c
  arg0 := s.arg0
  arg1 := s.arg1
  thresh := s.thresh
  srtemp := s.srtemp

/-- The snapshot the running command uses (30_encoding.md R95). Where no command is latched, which no step reaches, it
is the snapshot a CMD write at this moment would take (log entry 11). -/
def State.operands (s : State) : Latch :=
  match s.pending with
  | .command l => l
  | .empty => s.snapshot 0#32
  | .reseed => s.snapshot 0#32

/-- The seed word {ARG1, ARG0} (30_encoding.md R97). -/
def Latch.seedWord (l : Latch) : W64 := l.arg1 ++ l.arg0

/-- sint32(v): the value of a 32-bit register read as two's complement (00_scope.md R7, 30_encoding.md R96). -/
def sint32 (v : W32) : Int := if v.getLsbD 31 then (v.toNat : Int) - 2 ^ 32 else (v.toNat : Int)

/-- Bits 31..0 of a 64-bit value, the half at the lower offset (20_memory.md R66). -/
def low32 (r : W64) : W32 := r.extractLsb' 0 32

/-- Bits 63..32 of a 64-bit value (20_memory.md R66). -/
def high32 (r : W64) : W32 := r.extractLsb' 32 32

/-- Arithmetic right shift (00_scope.md R8). -/
def asr32 (x : W32) (s : Nat) : W32 := x.sshiftRight s

/-- The number of bits of x without leading zeros; bitlen(0) = 0 (00_scope.md R8). -/
def bitlen (x : Nat) : Nat := if x = 0 then 0 else Nat.log2 x + 1

end Sys2Proof.Machine
end

