-- ==== Sys2Proof/Machine/Flags.lean ====
section
/-! DEFINITION. The words software sees that are assembled from flags and fields: STATUS, CTRL, and the legalised value
of THRESH. -/

namespace Sys2Proof.Machine

/-- STATUS: SEED_TRUNC in bit 8, ERRCODE in bits 7..4, ERR in bit 1, BUSY in bit 0, the rest 0 (10_state.md R35). -/
def State.statusWord (s : State) : W32 :=
  0#23 ++ BitVec.ofBool s.seedTrunc ++ s.errCode ++ 0#2 ++ BitVec.ofBool s.err ++ BitVec.ofBool s.busy

/-- CTRL: SRTEMP in bit 0, the rest reserved and read 0 (10_state.md R34). -/
def State.ctrlWord (s : State) : W32 := 0#31 ++ BitVec.ofBool s.srtemp

/-- The value THRESH takes from a write: at most 0x0001_0000 (10_state.md R37). -/
def legalThresh (w : W32) : W32 := if w ≤ Config.threshMax then w else Config.threshMax

end Sys2Proof.Machine
end

