-- ==== Sys2Proof/Machine/Generators.lean ====
section
/-! DEFINITION. The shift-register unit, the twisted-feedback unit, the raw draw and NEXT_WORD (41_generators.md). -/

namespace Sys2Proof.Machine

/-- SRStep: one SR state advance, with the untempered word it returns (41_generators.md R131). All four taps are read
before either slot is written. -/
def srStep (u : SrUnit) : W32 × SrUnit :=
  let i := u.idx.val
  let im1 := (i + 15) % 16
  let vi := readWord u.v i
  let vm1 := readWord u.v ((i + 13) % 16)
  let vm2 := readWord u.v ((i + 9) % 16)
  let z0 := readWord u.v im1
  let z1 := (vi ^^^ (vi <<< 16)) ^^^ (vm1 ^^^ (vm1 <<< 15))
  let z2 := vm2 ^^^ (vm2 >>> 11)
  let z3 := z1 ^^^ z2
  let z4 := (z0 ^^^ (z0 <<< 2)) ^^^ (z1 ^^^ (z1 <<< 18)) ^^^ (z2 <<< 28) ^^^ (z3 ^^^ ((z3 <<< 5) &&& 0xDA442D24#32))
  (z4, { v := writeWord (writeWord u.v i z3) im1 z4, idx := Fin.ofNat 16 im1 })

/-- TemperSR (41_generators.md R132). -/
def temperSR (z : W32) : W32 :=
  let t := z ^^^ ((z <<< 7) &&& 0xE46E1700#32)
  t ^^^ ((t <<< 15) &&& 0x9B868000#32)

/-- SRDraw(s): one SR raw draw, tempered when SRTEMP = 1 (41_generators.md R132). -/
def srDraw (srtemp : Bool) (u : SrUnit) : W32 × SrUnit :=
  let (z, u') := srStep u
  (if srtemp then temperSR z else z, u')

/-- One iteration of the twist: the new MT[i] from the store as it stands (41_generators.md R135). -/
def twistAt (i : Nat) (mt : Vector W64 312) : Vector W64 312 :=
  let y := (readWord mt i &&& 0xFFFFFFFF80000000#64) ||| (readWord mt ((i + 1) % 312) &&& 0x000000007FFFFFFF#64)
  writeWord mt i (readWord mt ((i + 156) % 312) ^^^ (y >>> 1) ^^^ (if y.getLsbD 0 then 0xB5026F5AA96619E9#64 else 0#64))

/-- Twist: regenerates MT in place, i ascending over 0 .. 311 (41_generators.md R135). -/
@[irreducible] def twist (mt : Vector W64 312) : Vector W64 312 := loopFrom twistAt 0 312 mt

/-- TemperTF (41_generators.md R136). -/
def temperTF (x : W64) : W64 :=
  let x1 := x ^^^ ((x >>> 29) &&& 0x5555555555555555#64)
  let x2 := x1 ^^^ ((x1 <<< 17) &&& 0x71D67FFFEDA60000#64)
  let x3 := x2 ^^^ ((x2 <<< 37) &&& 0xFFF7EEE000000000#64)
  x3 ^^^ (x3 >>> 43)

/-- The TF unit as a draw finds it: at TF_IDX = 312 it twists first and TF_IDX becomes 0 (41_generators.md R137). -/
def tfRefill (u : TfUnit) : TfUnit := if 312 ≤ u.idx.val then { mt := twist u.mt, idx := 0 } else u

/-- TFDraw: one TF raw draw (41_generators.md R137). -/
def tfDraw (u : TfUnit) : W64 × TfUnit :=
  let u' := tfRefill u
  (temperTF (readWord u'.mt u'.idx.val), { u' with idx := Fin.ofNat 313 (u'.idx.val + 1) })

/-- A raw word: 32 bits from the SR unit, 64 bits from the TF unit (41_generators.md R139). -/
inductive RawWord where
  | sr (r : W32)
  | tf (r : W64)
  deriving DecidableEq, Repr

/-- draw(fam): one raw draw with the snapshot's SRTEMP; it advances only the store of its family (41_generators.md
R140). -/
def draw (f : Fam) (srtemp : Bool) (u : Units) : RawWord × Units :=
  match f with
  | .sr => let (r, sr) := srDraw srtemp u.sr; (.sr r, { u with sr := sr })
  | .tf => let (r, tf) := tfDraw u.tf; (.tf r, { u with tf := tf })

/-- RES0 of a raw word: the SR word, or the low half of the TF word (30_encoding.md R98). -/
def RawWord.res0 : RawWord → W32
  | .sr r => r
  | .tf r => low32 r

/-- RES1 of a raw word: 0, or the high half of the TF word (30_encoding.md R98). -/
def RawWord.res1 : RawWord → W32
  | .sr _ => 0#32
  | .tf r => high32 r

/-- NEXT_WORD: one raw draw into RES0 and RES1; LASTDRAWS <- 1 (41_generators.md R141). -/
def execNextWord (f : Fam) (s : State) : Host.Outcome State Fault Refusal :=
  let (r, u) := draw f s.operands.srtemp s.units
  .next (((s.setUnits u).setResults r.res0 r.res1).setLastDraws 1)

end Sys2Proof.Machine
end

