-- ==== Sys2Proof/Machine/Seeding.lean ====
section
/-! DEFINITION. The seed key, the two seeding FSMs, and SEED_CLEAR, SEED_PUSH and SEED_APPLY (40_seeding.md). -/

namespace Sys2Proof.Machine

/-- SeedKey(): the valid entries of the seed buffer, or the fallback key when there are none (40_seeding.md R113). -/
def State.seedKey (s : State) : List W64 :=
  if s.seedLen.val = 0 then Config.fallbackKey else s.seedBuf.toList.take s.seedLen.val

/-- key[j]; the rules use it for j < L only. -/
def keyWord (key : List W64) (j : Nat) : W64 := key.getD j 0#64

/-- One iteration of SeedSR's EXTEND phase, with L' = lag (40_seeding.md R114). -/
def srExtendAt (lag i : Nat) (v : Vector W32 16) : Vector W32 16 :=
  let c := readWord v (i - lag)
  writeWord v i (1812433253#32 * (c ^^^ asr32 c 30) + BitVec.ofNat 32 i)

/-- SeedSR(key): CLEAR, COPY the leading words' low halves, EXTEND, cursor 0 (40_seeding.md R114). -/
def seedSR (key : List W64) : SrUnit :=
  let lag := min key.length 16
  let cleared : Vector W32 16 := Vector.replicate 16 0#32
  let copied := loopFrom (fun j v => writeWord v j (low32 (keyWord key j))) 0 lag cleared
  { v := loopFrom (srExtendAt lag) lag (16 - lag) copied, idx := 0 }

/-- x ^ (x >> 62), the mix all three TF seeding phases share (40_seeding.md R117). -/
def fold62 (x : W64) : W64 := x ^^^ (x >>> 62)

/-- One iteration of SeedTF's INIT phase (40_seeding.md R117). -/
def tfInitAt (k : Nat) (mt : Vector W64 312) : Vector W64 312 :=
  writeWord mt k (6364136223846793005#64 * fold62 (readWord mt (k - 1)) + BitVec.ofNat 64 k)

/-- SeedTF's INIT phase: MT[0] <- 19650218, then k ascending over 1 .. 311 (40_seeding.md R117, R118). -/
@[irreducible] def tfInit : Vector W64 312 := loopFrom tfInitAt 1 311 (writeWord (Vector.replicate 312 0#64) 0 19650218#64)

/-- What the mixing phases of SeedTF carry: MT, i and j (40_seeding.md R117). -/
structure TfMix where
  mt : Vector W64 312
  i : Nat
  j : Nat

/-- `if i >= 312 then MT[0] <- MT[311]; i <- 1` (40_seeding.md R117). -/
def TfMix.wrap (m : TfMix) : TfMix :=
  if 312 ≤ m.i then { m with mt := writeWord m.mt 0 (readWord m.mt 311), i := 1 } else m

/-- One iteration of MIX1 (40_seeding.md R117). -/
def tfMix1 (key : List W64) (m : TfMix) : TfMix :=
  let x := (readWord m.mt m.i ^^^ (fold62 (readWord m.mt (m.i - 1)) * 3935559000370003845#64))
    + keyWord key m.j + BitVec.ofNat 64 m.j
  let m' := TfMix.wrap { mt := writeWord m.mt m.i x, i := m.i + 1, j := m.j + 1 }
  if key.length ≤ m'.j then { m' with j := 0 } else m'

/-- One iteration of MIX2 (40_seeding.md R117). -/
def tfMix2 (m : TfMix) : TfMix :=
  let x := (readWord m.mt m.i ^^^ (fold62 (readWord m.mt (m.i - 1)) * 2862933555777941757#64)) - BitVec.ofNat 64 m.i
  TfMix.wrap { mt := writeWord m.mt m.i x, i := m.i + 1, j := m.j }

/-- SeedTF(key): INIT, MIX1, MIX2, FINAL, cursor 312 (40_seeding.md R117). -/
@[irreducible] def seedTF (key : List W64) : TfUnit :=
  let m1 := repeatTimes (tfMix1 key) (max 312 key.length) { mt := tfInit, i := 1, j := 0 }
  let m2 := repeatTimes tfMix2 311 m1
  { mt := writeWord m2.mt 0 0x8000000000000000#64, idx := 312 }

/-- Construct the state of one family from a key; the other family is unchanged (40_seeding.md R112, R120). -/
def Units.seed (u : Units) (f : Fam) (key : List W64) : Units :=
  match f with
  | .sr => { u with sr := seedSR key }
  | .tf => { u with tf := seedTF key }

/-- The RESEED operation: SeedSR([0]); SeedTF([0]) (43_control.md R191, 70_reset_and_hazards.md R231). -/
def reseed (s : State) : State :=
  s.setUnits { sr := seedSR Config.fallbackKey, tf := seedTF Config.fallbackKey }

/-- SEED_CLEAR: SEEDLEN <- 0; SEED_TRUNC <- 0; LASTDRAWS <- 0 (40_seeding.md R110). -/
def execSeedClear (s : State) : Host.Outcome State Fault Refusal := .next (s.clearSeed.setLastDraws 0)

/-- SEED_PUSH: append {ARG1, ARG0}, or set SEED_TRUNC when full; LASTDRAWS <- 0 (40_seeding.md R111). -/
def execSeedPush (s : State) : Host.Outcome State Fault Refusal :=
  .next ((s.pushSeed s.operands.seedWord).setLastDraws 0)

/-- SEED_APPLY: construct family f from the seed key; LASTDRAWS <- 0 (40_seeding.md R112). -/
def execSeedApply (f : Fam) (s : State) : Host.Outcome State Fault Refusal :=
  .next ((s.setUnits (s.units.seed f s.seedKey)).setLastDraws 0)

end Sys2Proof.Machine
end

