-- ==== Sys2Proof/Machine/Sampler.lean ====
section
/-! DEFINITION. The bit-width converter, the path multiplexer, the rejection loop, NEXT_BOUNDED and NEXT_BOUNDED_PAIR
(42_sampler.md). -/

namespace Sys2Proof.Machine

/-- The 32-bit sample word of a raw word: the SR word, or bits 63..32 of the TF word (42_sampler.md R161). -/
def RawWord.sample : RawWord → W32
  | .sr r => r
  | .tf r => high32 r

/-- SampleWord(fam): one raw draw gives one sample word (42_sampler.md R161). -/
def sampleWord (f : Fam) (srtemp : Bool) (u : Units) : W32 × Units :=
  let (r, u') := draw f srtemp u
  (r.sample, u')

/-- The three reductions (00_scope.md R13). -/
inductive Path where
  | pow2
  | small
  | full
  deriving DecidableEq, Repr

/-- The path multiplexer: power of two first, then b < T, else full width (42_sampler.md R163). -/
def choosePath (b t : Nat) : Path :=
  if b &&& (b - 1) = 0 then .pow2 else if b < t then .small else .full

/-- SMALL path on one sample word: lane 0, then lane 1, masked to bitlen(b - 1) bits and accepted below b (42_sampler.md
R162, R165). -/
def smallCandidate (b : Nat) (x : W32) : Option Nat :=
  let mask := 2 ^ bitlen (b - 1) - 1
  let c0 := (x.extractLsb' 0 16).toNat &&& mask
  let c1 := (x.extractLsb' 16 16).toNat &&& mask
  if c0 < b then some c0 else if c1 < b then some c1 else none

/-- The largest multiple of b that fits in [0, 2^32] (42_sampler.md R166). -/
def fullLimit (b : Nat) : Nat := 2 ^ 32 - 2 ^ 32 % b

/-- What a path makes of one sample word: the sample, or nothing when the word is rejected (42_sampler.md R164-R166). -/
def candidate (p : Path) (b : Nat) (x : W32) : Option Nat :=
  match p with
  | .pow2 => some (x.toNat &&& (b - 1))
  | .small => smallCandidate b x
  | .full => if x.toNat < fullLimit b then some (x.toNat % b) else none

/-- The rejection loop with `left` raw draws still allowed and `n` already made: the units after the draws, and the
sample with the number of draws, or nothing when one more draw would exceed the cap (42_sampler.md R163, R167). -/
def sampleLoop (f : Fam) (srtemp : Bool) (accept : W32 → Option Nat) :
    (left n : Nat) → Units → Units × Option (Nat × Nat)
  | 0, _, u => (u, none)
  | left + 1, n, u =>
    match accept (sampleWord f srtemp u).1 with
    | some v => ((sampleWord f srtemp u).2, some (v, n + 1))
    | none => sampleLoop f srtemp accept left (n + 1) (sampleWord f srtemp u).2

/-- Bounded(fam, b, T) with the rejection cap as a parameter (42_sampler.md R163, 93_implementation_defined.md U9). -/
def bounded (cap : Nat) (f : Fam) (srtemp : Bool) (b t : Nat) (u : Units) : Units × Option (Nat × Nat) :=
  sampleLoop f srtemp (candidate (choosePath b t) b) cap 0 u

/-- A sampling command past its operand check: run Bounded, then place the results, or record REJECT_CAP_EXCEEDED with
the draws kept and RES0, RES1 unchanged (42_sampler.md R167, R170, R171). The cap is a parameter (U9). -/
def runSample (cap : Nat) (f : Fam) (b : Nat) (place : Nat → W32 × W32) (s : State) : State :=
  match bounded cap f s.operands.srtemp b s.operands.thresh.toNat s.units with
  | (u, some (v, n)) => ((s.setUnits u).setResults (place v).1 (place v).2).setLastDraws n
  | (u, none) => ((s.setUnits u).setLastDraws cap).raise .rejectCapExceeded

/-- RES0 and RES1 of NEXT_BOUNDED: the sample, and 0 (30_encoding.md R98). -/
def placeSample (v : Nat) : W32 × W32 := (BitVec.ofNat 32 v, 0#32)

/-- RES0 and RES1 of NEXT_BOUNDED_PAIR: v / b2 and v mod b2 (42_sampler.md R171). -/
def placePair (b2 v : Nat) : W32 × W32 := (BitVec.ofNat 32 (v / b2), BitVec.ofNat 32 (v % b2))

/-- NEXT_BOUNDED: a bounded sample for the bound sint32(ARG0); a non-positive bound raises INVALID_BOUND before any draw
(42_sampler.md R170). -/
def execNextBounded (f : Fam) (s : State) : Host.Outcome State Fault Refusal :=
  let b := sint32 s.operands.arg0
  if b ≤ 0 then .next ((s.setLastDraws 0).raise .invalidBound)
  else .next (runSample Config.rejectCap f b.toNat placeSample s)

/-- NEXT_BOUNDED_PAIR: one bounded sample for the exact product, split by division; a bad pair raises INVALID_PAIR
before any draw (42_sampler.md R171). -/
def execNextBoundedPair (f : Fam) (s : State) : Host.Outcome State Fault Refusal :=
  let b1 := sint32 s.operands.arg0
  let b2 := sint32 s.operands.arg1
  if b1 ≤ 0 ∨ b2 ≤ 0 ∨ 2 ^ 31 ≤ b1 * b2 then .next ((s.setLastDraws 0).raise .invalidPair)
  else .next (runSample Config.rejectCap f (b1 * b2).toNat (placePair b2.toNat) s)

end Sys2Proof.Machine
end

