-- ==== Sys2Proof/Machine/Control.lean ====
section
/-! DEFINITION. NOP and SOFT_RESET (43_control.md). -/

namespace Sys2Proof.Machine

/-- NOP: LASTDRAWS <- 0 and nothing else (43_control.md R192). -/
def execNop (s : State) : Host.Outcome State Fault Refusal := .next (s.setLastDraws 0)

/-- SOFT_RESET: ResetState(); SeedSR([0]); SeedTF([0]) (43_control.md R193). -/
def execSoftReset (s : State) : Host.Outcome State Fault Refusal := .next (reseed (resetState s))

end Sys2Proof.Machine
end

