-- ==== Sys2Proof/Machine/Window.lean ====
section
/-! DEFINITION. The register window: the sixteen registers, RegRead, RegWrite with command issue, and the bus port
(10_state.md R30-R46, 20_memory.md R60-R64, 43_control.md R190). -/

namespace Sys2Proof.Machine

/-- The sixteen registers of the window (10_state.md R30). -/
inductive Reg where
  | id
  | param0
  | param1
  | ctrl
  | status
  | thresh
  | cmd
  | arg0
  | arg1
  | res0
  | res1
  | seedLen
  | lastDraws
  | rejCap
  | reserved38
  | reserved3C
  deriving DecidableEq, Repr

/-- The register at a byte offset of the window; none where no register starts (10_state.md R30). -/
def regAt : (off : Nat) → Option Reg
  | 0x00 => some .id
  | 0x04 => some .param0
  | 0x08 => some .param1
  | 0x0C => some .ctrl
  | 0x10 => some .status
  | 0x14 => some .thresh
  | 0x18 => some .cmd
  | 0x1C => some .arg0
  | 0x20 => some .arg1
  | 0x24 => some .res0
  | 0x28 => some .res1
  | 0x2C => some .seedLen
  | 0x30 => some .lastDraws
  | 0x34 => some .rejCap
  | 0x38 => some .reserved38
  | 0x3C => some .reserved3C
  | _ => none

/-- RegRead: the value of a register; no side effect (20_memory.md R62, 10_state.md R31-R46). -/
def regRead (r : Reg) (s : State) : W32 :=
  match r with
  | .id => Config.idValue
  | .param0 => Config.param0Value
  | .param1 => Config.param1Value
  | .ctrl => s.ctrlWord
  | .status => s.statusWord
  | .thresh => s.thresh
  | .cmd => 0#32
  | .arg0 => s.arg0
  | .arg1 => s.arg1
  | .res0 => s.res0
  | .res1 => s.res1
  | .seedLen => BitVec.ofNat 32 s.seedLen.val
  | .lastDraws => s.lastDraws.setWidth 32
  | .rejCap => BitVec.ofNat 32 Config.rejectCap
  | .reserved38 => 0#32
  | .reserved3C => 0#32

/-- Command issue: a CMD write while BUSY = 1 raises OVERRUN and is dropped, else it latches the command with its
snapshot (43_control.md R190). -/
def issueCommand (c : W32) (s : State) : State :=
  if s.busy then s.raise .overrun else s.latchCommand (s.snapshot c)

/-- RegWrite: its effect by register (20_memory.md R63). -/
def regWrite (r : Reg) (x : W32) (s : State) : State :=
  match r with
  | .ctrl => s.setSrtemp (x.getLsbD 0)
  | .status => if x.getLsbD 1 then s.clearError else s
  | .thresh => s.setThresh (legalThresh x)
  | .cmd => issueCommand x s
  | .arg0 => s.setArg0 x
  | .arg1 => s.setArg1 x
  | .id => s
  | .param0 => s
  | .param1 => s
  | .res0 => s
  | .res1 => s
  | .seedLen => s
  | .lastDraws => s
  | .rejCap => s
  | .reserved38 => s
  | .reserved3C => s

/-- Is a byte address inside the window (20_memory.md R61). -/
def inWindow (addr : Nat) : Bool := Config.base ≤ addr && addr < Config.base + Config.windowBytes

/-- The register a supported access names: an aligned 32-bit access with all byte enables set (20_memory.md R62-R64). -/
def accessReg (a : Access) : Option Reg :=
  if a.size = .word ∧ a.byteEnable = 0xF#4 then regAt (a.addr - Config.base) else none

/-- One host access on the port: refused while rst_n = 0 (U5), a fault outside the window, refused when unsupported
(U1), else a RegWrite or a RegRead whose answer is the port's read data. -/
def busAccess (a : Access) (s : State) : Host.Outcome State Fault Refusal :=
  if s.rstN = false then .refused .accessDuringReset
  else if inWindow a.addr = false then .fault .outsideWindow
  else
    match accessReg a with
    | none => .refused .unsupportedAccess
    | some r => if a.write then .next (regWrite r a.wdata s) else .next (s.setRdata (regRead r s))

end Sys2Proof.Machine
end

