-- ==== Sys2Proof/Machine/Dispatch.lean ====
section
/-! DEFINITION. One arm per command: the case of 43_control.md R191. -/

namespace Sys2Proof.Machine

def exec (i : Instr) (s : State) : Host.Outcome State Fault Refusal :=
  match i with
  | .nop => Sys2Proof.Machine.execNop s
  | .seedClear => Sys2Proof.Machine.execSeedClear s
  | .seedPush => Sys2Proof.Machine.execSeedPush s
  | .seedApply f => Sys2Proof.Machine.execSeedApply f s
  | .nextWord f => Sys2Proof.Machine.execNextWord f s
  | .nextBounded f => Sys2Proof.Machine.execNextBounded f s
  | .nextBoundedPair f => Sys2Proof.Machine.execNextBoundedPair f s
  | .softReset => Sys2Proof.Machine.execSoftReset s

end Sys2Proof.Machine
end

