-- ==== Sys2Proof/Machine/Engine.lean ====
section
/-! DEFINITION. The engine step around exec, and what each event does (43_control.md R191, 20_memory.md R71,
70_reset_and_hazards.md R230). -/

namespace Sys2Proof.Machine

/-- The last line of the engine step, PENDING <- empty; BUSY <- 0, after a command's effects (43_control.md R191). -/
def completeOutcome : Host.Outcome State Fault Refusal → Host.Outcome State Fault Refusal
  | .next s => .next s.complete
  | .fault r => .fault r
  | .refused r => .refused r

/-- A latched command word: LASTDRAWS <- 0, then ILLEGAL_CMD or the command (43_control.md R191, 60_exceptions.md
R202). -/
def runWord (c : W32) (s : State) : Host.Outcome State Fault Refusal :=
  match decode c with
  | .ok i => exec i (s.setLastDraws 0)
  | .error _ => .next ((s.setLastDraws 0).raise .illegalCmd)

/-- EngineStep(): nothing when PENDING is empty, else the RESEED or the latched command, then completion
(43_control.md R191). -/
def engineStep (s : State) : Host.Outcome State Fault Refusal :=
  match s.pending with
  | .empty => .next s
  | .reseed => .next (reseed s).complete
  | .command l => completeOutcome (runWord l.word s)

/-- The engine's turn; while rst_n = 0 the engine makes no step (70_reset_and_hazards.md R230). -/
def engineTurn (s : State) : Host.Outcome State Fault Refusal :=
  if s.rstN then engineStep s else .next s

/-- What one event does. When rst_n returns to 1 the block is in the state of Reset() (70_reset_and_hazards.md R230);
rst_n already at 1 changes nothing. -/
def runEvent (e : Event) (s : State) : Host.Outcome State Fault Refusal :=
  match e with
  | .access a => busAccess a s
  | .engineTurn => engineTurn s
  | .rstLow => .next (s.setRstN false)
  | .rstHigh => if s.rstN then .next s else .next (hardReset s)
  | .reset => .next (hardReset s)

/-- The command of word w latched with the snapshot of this moment and due at the very next step (log entry 2). -/
def State.withPendingWord (s : State) (w : W32) : State :=
  ((s.latchCommand (s.snapshot w)).setRstN true).setInputs (.engineTurn :: s.inputs)

/-- One step: the next event, or, when no event is left, the engine's turn (log entry 1). -/
def stepOnce (s : State) : Host.Outcome State Fault Refusal :=
  match s.inputs with
  | [] => engineTurn s
  | e :: rest => runEvent e (s.setInputs rest)

end Sys2Proof.Machine
end

