-- ==== Sys2Proof/Machine/Step.lean ====
section
/-! DEFINITION. The step function and the placement of one command as the next to run. -/

namespace Sys2Proof.Machine

/-- One atomic step: one host access, one pin event or one engine turn (20_memory.md R71). -/
def step (s : State) : Host.Outcome State Fault Refusal := stepOnce s

/-- The state whose very next step runs the command whose table bits are `w` (bits above `nbits` are 0). The block
fetches nothing (20_memory.md R75): a CMD write places a command, so this is that write's effect on an idle block
(43_control.md R190) with the engine's turn next. Log entry 2. -/
def State.withFetchWord (s : State) (nbits w : Nat) : State :=
  s.withPendingWord (BitVec.ofNat 32 (w % 2 ^ nbits))

end Sys2Proof.Machine
end

