-- ==== Sys2Proof/Safety.lean ====
section
/-! DEFINITION. The terms claims use: the invariants of 10_state.md R48, the stream of sample words from a state of the
generator units, illegal words as 30_encoding.md R99 lists them, and the transport of an outcome along a change of the
state. -/

namespace Sys2Proof.Machine

/-- The invariants every rule preserves (10_state.md R48), with the bounds of R45 (LASTDRAWS at most REJECT_CAP), of
60_exceptions.md R200 (codes above 5 are never produced) and of R37 for the THRESH value of a latched command. -/
structure State.Inv (s : State) : Prop where
  srIdx : s.units.sr.idx.val ≤ 15
  tfIdx : s.units.tf.idx.val ≤ 312
  seedLen : s.seedLen.val ≤ 312
  thresh : s.thresh.toNat ≤ 0x10000
  busy : s.busy = true ↔ s.pending ≠ .empty
  errCode : s.errCode = 0#4 ↔ s.err = false
  errCodeProduced : s.errCode.toNat ≤ 5
  lastDraws : s.lastDraws.toNat ≤ 0x100000
  latched : ∀ l, s.pending = .command l → l.thresh.toNat ≤ 0x10000

/-- The generator units after n raw draws of family f (41_generators.md R140). -/
def unitsAfter (f : Fam) (srtemp : Bool) (n : Nat) (u : Units) : Units :=
  (fun v => (sampleWord f srtemp v).2)^[n] u

/-- The sample word of draw number n + 1 of family f (42_sampler.md R161). -/
def sampleAt (f : Fam) (srtemp : Bool) (n : Nat) (u : Units) : W32 :=
  (sampleWord f srtemp (unitsAfter f srtemp n u)).1

/-- The TF unit after n raw draws (41_generators.md R137). -/
def tfAfter (n : Nat) (u : TfUnit) : TfUnit := (fun v => (tfDraw v).2)^[n] u

/-- The SR unit after n raw draws (41_generators.md R131). -/
def srAfter (n : Nat) (u : SrUnit) : SrUnit := (fun v => (srStep v).2)^[n] u

/-- The illegal command words as 30_encoding.md R99 lists them, by arithmetic on the word. -/
def IllegalWord (c : W32) : Prop :=
  2 ^ 9 ≤ c.toNat
    ∨ (0x07 ≤ c.toNat % 256 ∧ c.toNat % 256 ≤ 0x0E)
    ∨ 0x10 ≤ c.toNat % 256
    ∨ (256 ≤ c.toNat % 512 ∧ (c.toNat % 256 ≤ 0x02 ∨ c.toNat % 256 = 0x0F))

/-- What Bounded makes of one sample word, by arithmetic alone: the three paths of 42_sampler.md R163-R166 read a second
time, with remainders for masks and the limit as floor(2^32 / b) * b. -/
def acceptSpec (b t : Nat) (x : W32) : Option Nat :=
  if b &&& (b - 1) = 0 then some (x.toNat % b)
  else if b < t then
    if x.toNat % 2 ^ 16 % 2 ^ Nat.size (b - 1) < b then some (x.toNat % 2 ^ 16 % 2 ^ Nat.size (b - 1))
    else if x.toNat / 2 ^ 16 % 2 ^ Nat.size (b - 1) < b then some (x.toNat / 2 ^ 16 % 2 ^ Nat.size (b - 1))
    else none
  else if x.toNat < 2 ^ 32 / b * b then some (x.toNat % b) else none

/-- The registers as ResetState leaves them (70_reset_and_hazards.md R231), BUSY and PENDING aside. -/
structure State.ResetRegisters (s : State) : Prop where
  srtemp : s.srtemp = true
  thresh : s.thresh = 0x00008000#32
  arg0 : s.arg0 = 0#32
  arg1 : s.arg1 = 0#32
  res0 : s.res0 = 0#32
  res1 : s.res1 = 0#32
  lastDraws : s.lastDraws = 0#21
  err : s.err = false
  errCode : s.errCode = 0#4
  seedLen : s.seedLen = 0
  seedTrunc : s.seedTrunc = false

/-- An outcome with its next state changed by g; faults and refusals as they are. -/
def mapNext (g : State → State) : Host.Outcome State Fault Refusal → Host.Outcome State Fault Refusal
  | .next s => .next (g s)
  | .fault r => .fault r
  | .refused r => .refused r

/-- Is the next thing to happen the engine's turn, with rst_n = 1 (log entry 1). -/
def State.EngineNext (s : State) : Prop :=
  s.rstN = true ∧ (s.inputs = [] ∨ ∃ rest, s.inputs = .engineTurn :: rest)

/-- Is the next thing to happen a Reset(): the atomic event, or rst_n returning from 0 to 1 (R230). -/
def State.ResetNext (s : State) : Prop :=
  (∃ rest, s.inputs = .reset :: rest) ∨ (s.rstN = false ∧ ∃ rest, s.inputs = .rstHigh :: rest)

/-- A supported 32-bit access at byte offset `off` of the window (20_memory.md R62, R63). -/
def wordAccess (off : Nat) (write : Bool) (x : W32) : Access where
  addr := Config.base + off
  size := .word
  byteEnable := 0xF#4
  write := write
  wdata := x

/-- The sixteen offsets of the window at which a register stands (10_state.md R30). -/
def registerOffsets : List Nat :=
  [0x00, 0x04, 0x08, 0x0C, 0x10, 0x14, 0x18, 0x1C, 0x20, 0x24, 0x28, 0x2C, 0x30, 0x34, 0x38, 0x3C]

/-- The RegWrite access at an offset. -/
def writeAccess (off : Nat) (x : W32) : Access := wordAccess off true x

/-- The RegRead access at an offset. -/
def readAccess (off : Nat) : Access := wordAccess off false 0#32

end Sys2Proof.Machine
end

