-- ==== Sys2Proof/Certificates/Slice0/Obligations.lean ====
section
/-! DEFINITION. The statements for the provers, from the numbered rules of spec/. The block has no data memory and no
program counter (10_state.md R21, 20_memory.md R61), so a frame here is the equality of every other field of the state. -/

open Sys2Proof Sys2Proof.Machine

-- Encoding

/-- 30_encoding.md R91-R94: no bit of a command word is dropped, in either direction, over the bus lanes too. -/
def Obligations.DecodeAndEncodeAgree : Prop :=
  (∀ i : Instr, decode (encode i) = .ok i) ∧
  (∀ (c : W32) (i : Instr), decode c = .ok i → encode i = c) ∧
  (∀ (i : Instr) (rest : List Byte),
    decodeBytes (lane (encode i) 0 :: lane (encode i) 1 :: lane (encode i) 2 :: lane (encode i) 3 :: rest) = .ok (i, rest))

/-- 30_encoding.md R92, R99, 60_exceptions.md R202: the illegal words are exactly those R99 lists, and a latched illegal
word completes with ILLEGAL_CMD and no other effect than LASTDRAWS = 0. -/
def Obligations.IllegalWordsCompleteWithIllegalCmd : Prop :=
  (∀ c : W32, IllegalWord c ↔ ∃ e, decode c = .error e) ∧
  (∀ c : W32, IllegalWord c ↔ legalWord c = false) ∧
  (∀ (s : State) (l : Latch), s.pending = .command l → IllegalWord l.word →
    engineStep s = .next { s with lastDraws := 0#21, err := true, errCode := 1#4, pending := .empty, busy := false })

/-- The command words as 30_encoding.md R101 writes them out. -/
def Obligations.SpecCommandWordsDecode : Prop :=
  decode 0x00000000#32 = .ok .nop ∧ decode 0x00000001#32 = .ok .seedClear ∧ decode 0x00000002#32 = .ok .seedPush ∧
  decode 0x00000003#32 = .ok (.seedApply .sr) ∧ decode 0x00000103#32 = .ok (.seedApply .tf) ∧
  decode 0x00000004#32 = .ok (.nextWord .sr) ∧ decode 0x00000104#32 = .ok (.nextWord .tf) ∧
  decode 0x00000005#32 = .ok (.nextBounded .sr) ∧ decode 0x00000105#32 = .ok (.nextBounded .tf) ∧
  decode 0x00000006#32 = .ok (.nextBoundedPair .sr) ∧ decode 0x00000106#32 = .ok (.nextBoundedPair .tf) ∧
  decode 0x0000000F#32 = .ok .softReset ∧
  decodeBytes [0x06#8, 0x01#8, 0x00#8, 0x00#8] = .ok (.nextBoundedPair .tf, [])

-- Reset

/-- The values 70_reset_and_hazards.md R231 gives for the state right after reset, in State.reset. Nothing is said of
the contents the spec leaves unspecified (log entry 3). -/
def Obligations.ResetLeavesTheSpecValues : Prop :=
  State.reset.ResetRegisters ∧ State.reset.busy = true ∧ State.reset.pending = .reseed ∧
  regRead .status State.reset = 0x00000001#32

/-- 70_reset_and_hazards.md R231: Reset(), from every state; while the RESEED is pending every CMD write is an overrun;
the RESEED step constructs both families from the empty seed; SOFT_RESET does both at once. -/
def Obligations.HardwareResetThenReseed : Prop :=
  ∀ (s : State) (rest : List Event), s.inputs = .reset :: .engineTurn :: rest →
    ∃ t u w, step s = .next t ∧ step t = .next u ∧ exec .softReset s = .next w ∧
      t.ResetRegisters ∧ t.pending = .reseed ∧ t.busy = true ∧
      (∀ c, regWrite .cmd c t = { t with err := true, errCode := 5#4 }) ∧
      u = { t with units := { sr := seedSR [0#64], tf := seedTF [0#64] }, pending := .empty, busy := false, inputs := rest } ∧
      w.ResetRegisters ∧ w.units = u.units ∧ w.pending = .empty ∧ w.busy = false

/-- 70_reset_and_hazards.md R232: every value of the table once the RESEED step has completed, and the first word of each
family, drawn by a NEXT_WORD whose CMD write the idle block accepts. -/
def Obligations.TableValuesAfterReseed : Prop :=
  ∀ s : State, ∃ u a b, engineStep (hardReset s) = .next u ∧
    u.units.sr.v.toList = [0x00000000#32, 0x00000001#32, 0x6C078967#32, 0x714ACB41#32, 0x48077044#32, 0x93E7383E#32,
      0x5EEC8EC6#32, 0xE72DD38A#32, 0xD7E92731#32, 0xE0ABC74F#32, 0x3B608D7A#32, 0x6F241B2D#32, 0x79FD4468#32,
      0xD5672E7A#32, 0x6D0DD687#32, 0xD3ED58ED#32] ∧
    u.units.sr.idx = 0 ∧
    readWord u.units.tf.mt 0 = 0x8000000000000000#64 ∧ readWord u.units.tf.mt 1 = 0x04DDBCD6A1C95C0B#64 ∧
    readWord u.units.tf.mt 2 = 0xA3F1BC2C29F6E9A1#64 ∧ readWord u.units.tf.mt 3 = 0x375BDC145804A6FC#64 ∧
    readWord u.units.tf.mt 311 = 0x47414653D2467D28#64 ∧ u.units.tf.mt = (seedTF [0#64]).mt ∧
    u.units.tf.idx.val = 312 ∧ u.seedLen = 0 ∧ regRead .seedLen u = 0#32 ∧
    regRead .id u = 0x524E4707#32 ∧ regRead .param0 u = 0x00100138#32 ∧ regRead .param1 u = 0x009C0138#32 ∧
    regRead .rejCap u = 0x00100000#32 ∧ regRead .ctrl u = 0x00000001#32 ∧ regRead .status u = 0x00000000#32 ∧
    regRead .status (hardReset s) = 0x00000001#32 ∧ regRead .thresh u = 0x00008000#32 ∧
    regRead .arg0 u = 0#32 ∧ regRead .arg1 u = 0#32 ∧ regRead .res0 u = 0#32 ∧ regRead .res1 u = 0#32 ∧
    regRead .lastDraws u = 0#32 ∧ u.pending = .empty ∧
    engineStep (regWrite .cmd 0x00000004#32 u) = .next a ∧ a.res0 = 0xFEE5E74E#32 ∧
    engineStep (regWrite .cmd 0x00000104#32 u) = .next b ∧ b.res1 = 0x6DEE6E4C#32 ∧ b.res0 = 0x3BB91947#32

/-- 70_reset_and_hazards.md R234: two resets give the same state, whatever came before, SEEDBUF's contents and the
model's own fields (log entries 1, 4, 10) aside, and so the same output streams. -/
def Obligations.ResetsAreDeterministic : Prop :=
  ∀ s s' : State, ∃ t t', engineStep (hardReset s) = .next t ∧ engineStep (hardReset s') = .next t' ∧
    t' = { t with seedBuf := t'.seedBuf, rdata := t'.rdata, inputs := t'.inputs, freeCount := t'.freeCount } ∧
    (∀ (f : Fam) (n : Nat), sampleAt f t.srtemp n t.units = sampleAt f t'.srtemp n t'.units)

/-- 43_control.md R193: SOFT_RESET, its word, its illegal forms, its effect, that it equals a hardware reset followed by
the RESEED step, and the first SR word after it. SEEDBUF's contents (unspecified, R231), the pin rst_n (which a command
does not drive) and the model's own fields (log entries 1, 4, 10) are set aside. -/
def Obligations.SoftResetRestoresTheResetState : Prop :=
  decode 0x0000000F#32 = .ok .softReset ∧
  (∀ c : W32, c.extractLsb' 0 8 = 0x0F#8 → c ≠ 0x0000000F#32 → ∃ e, decode c = .error e) ∧
  (∀ s : State, ∃ t v u, exec .softReset s = .next t ∧ t.ResetRegisters ∧ t.busy = false ∧ t.pending = .empty ∧
    t.units = { sr := seedSR [0#64], tf := seedTF [0#64] } ∧
    engineStep (hardReset s) = .next v ∧
    v = { t with
      seedBuf := v.seedBuf, rstN := v.rstN, rdata := v.rdata, inputs := v.inputs, freeCount := v.freeCount } ∧
    engineStep (regWrite .cmd 0x00000004#32 t) = .next u ∧ u.res0 = 0xFEE5E74E#32)

-- The register window

/-- 20_memory.md R62, 10_state.md R31-R33: a read access at each of the sixteen offsets answers the register's value and
changes nothing else but the model's read data. -/
def Obligations.ReadsAnswerTheRegisterOnly : Prop :=
  ∀ (s : State) (rest : List Event) (p : Nat × W32), s.rstN = true →
    p ∈ [(0x00, 0x524E4707#32), (0x04, 0x00100138#32), (0x08, 0x009C0138#32),
      (0x0C, if s.srtemp then 1#32 else 0#32), (0x10, s.statusWord), (0x14, s.thresh), (0x18, 0#32),
      (0x1C, s.arg0), (0x20, s.arg1), (0x24, s.res0), (0x28, s.res1), (0x2C, BitVec.ofNat 32 s.seedLen.val),
      (0x30, BitVec.ofNat 32 s.lastDraws.toNat), (0x34, 0x00100000#32), (0x38, 0#32), (0x3C, 0#32)] →
    s.inputs = .access (readAccess p.1) :: rest →
    step s = .next { s with inputs := rest, rdata := p.2 }

/-- 20_memory.md R63: what a write access does at each of the sixteen offsets. -/
def Obligations.WritesTakeTheirEffectByOffset : Prop :=
  ∀ (s : State) (rest : List Event) (off : Nat) (x : W32), s.rstN = true →
    s.inputs = .access (writeAccess off x) :: rest →
    (off = 0x0C → step s = .next { s with inputs := rest, srtemp := x.getLsbD 0 }) ∧
    (off = 0x10 → x.getLsbD 1 = true → step s = .next { s with inputs := rest, err := false, errCode := 0#4 }) ∧
    (off = 0x10 → x.getLsbD 1 = false → step s = .next { s with inputs := rest }) ∧
    (off = 0x14 → x.toNat ≤ 0x10000 → step s = .next { s with inputs := rest, thresh := x }) ∧
    (off = 0x14 → 0x10000 < x.toNat → step s = .next { s with inputs := rest, thresh := 0x00010000#32 }) ∧
    (off = 0x18 → s.busy = false → step s = .next { s with
      inputs := rest, busy := true,
      pending := .command { word := x, arg0 := s.arg0, arg1 := s.arg1, thresh := s.thresh, srtemp := s.srtemp } }) ∧
    (off = 0x18 → s.busy = true → step s = .next { s with inputs := rest, err := true, errCode := 5#4 }) ∧
    (off = 0x1C → step s = .next { s with inputs := rest, arg0 := x }) ∧
    (off = 0x20 → step s = .next { s with inputs := rest, arg1 := x }) ∧
    (off ∈ [0x00, 0x04, 0x08, 0x24, 0x28, 0x2C, 0x30, 0x34, 0x38, 0x3C] → step s = .next { s with inputs := rest })

/-- 20_memory.md R64: any access in the window that is not an aligned 32-bit access with all byte enables set is
refused. -/
def Obligations.UnsupportedAccessesAreRefused : Prop :=
  ∀ (s : State) (a : Access) (rest : List Event), s.rstN = true → s.inputs = .access a :: rest →
    Config.base ≤ a.addr → a.addr < Config.base + 64 →
    (a.size ≠ .word ∨ a.byteEnable ≠ 0xF#4 ∨ a.addr % 4 ≠ 0) → step s = .refused .unsupportedAccess

/-- 70_reset_and_hazards.md R230: while rst_n = 0 no register access and no engine step; when it returns to 1, and at
the atomic reset event, the state is that of Reset(), the pending command discarded. -/
def Obligations.ResetPinHoldsTheBlock : Prop :=
  ∀ (s : State) (rest : List Event),
    (∀ a, s.rstN = false → s.inputs = .access a :: rest → step s = .refused .accessDuringReset) ∧
    (s.rstN = false → s.inputs = .engineTurn :: rest → step s = .next { s with inputs := rest }) ∧
    (s.inputs = .rstLow :: rest → ∃ t, step s = .next t ∧ t.rstN = false) ∧
    (s.rstN = false → s.inputs = .rstHigh :: rest →
      ∃ t, step s = .next t ∧ t = hardReset { s with inputs := rest } ∧ t.ResetRegisters ∧ t.pending = .reseed ∧
        t.busy = true ∧ t.rstN = true) ∧
    (s.inputs = .reset :: rest →
      ∃ t, step s = .next t ∧ t = hardReset { s with inputs := rest } ∧ t.ResetRegisters ∧ t.pending = .reseed ∧
        t.busy = true ∧ t.rstN = true)

/-- 20_memory.md section 1: the window is the only address space. That an address outside it faults is the model's own
choice (log entry 9). -/
def Obligations.AddressesOutsideTheWindowFault : Prop :=
  ∀ (s : State) (a : Access) (rest : List Event), s.rstN = true → s.inputs = .access a :: rest →
    (a.addr < Config.base ∨ Config.base + 64 ≤ a.addr) → step s = .fault .outsideWindow

/-- 10_state.md R36: a STATUS write clears ERR and ERRCODE exactly when bit 1 is set, while BUSY = 1 too, and an error
of the pending command (an illegal word here) sets ERR again. -/
def Obligations.StatusWriteClearsTheErrorOnly : Prop :=
  ∀ (s : State) (x : W32),
    (x.getLsbD 1 = true → regWrite .status x s = { s with err := false, errCode := 0#4 }) ∧
    (x.getLsbD 1 = false → regWrite .status x s = s) ∧
    (∀ l, s.pending = .command l → IllegalWord l.word →
      ∃ t, engineStep (regWrite .status x s) = .next t ∧ t.err = true ∧ t.errCode = 1#4)

/-- 10_state.md section 4, STATUS: which bit carries which field, and that the reserved bits read 0. -/
def Obligations.StatusWordFields : Prop :=
  ∀ s : State,
    s.statusWord.getLsbD 0 = s.busy ∧ s.statusWord.getLsbD 1 = s.err ∧ s.statusWord.extractLsb' 2 2 = 0#2 ∧
    s.statusWord.extractLsb' 4 4 = s.errCode ∧ s.statusWord.getLsbD 8 = s.seedTrunc ∧
    s.statusWord.extractLsb' 9 23 = 0#23

/-- 10_state.md R37: THRESH is write-any-read-legal. -/
def Obligations.ThresholdWritesAreLegalised : Prop :=
  State.reset.thresh = 0x00008000#32 ∧
  ∀ (s : State) (w : W32),
    (w.toNat ≤ 0x10000 → regWrite .thresh w s = { s with thresh := w }) ∧
    (0x10000 < w.toNat → regWrite .thresh w s = { s with thresh := 0x00010000#32 }) ∧
    regRead .thresh s = s.thresh

/-- 10_state.md R26: no access reads or writes a state store or a cursor: it answers the same whatever the generator
units hold, and leaves them as they are. -/
def Obligations.WindowCannotReachTheStores : Prop :=
  ∀ (s : State) (u : Units) (a : Access),
    busAccess a { s with units := u } = mapNext (fun t => { t with units := u }) (busAccess a s) ∧
    ∀ t, busAccess a s = .next t → t.units = s.units

/-- 70_reset_and_hazards.md section 3 (stale results, operand writes): a host access leaves the results, LASTDRAWS, the
seed buffer and the generator units as they are. -/
def Obligations.HostAccessesLeaveResultsAndStores : Prop :=
  ∀ (s t : State) (a : Access), busAccess a s = .next t →
    t.res0 = s.res0 ∧ t.res1 = s.res1 ∧ t.lastDraws = s.lastDraws ∧ t.seedLen = s.seedLen ∧
    t.seedTrunc = s.seedTrunc ∧ t.seedBuf = s.seedBuf ∧ t.units = s.units ∧ t.rstN = s.rstN ∧ t.inputs = s.inputs

-- The command lifecycle

/-- 43_control.md R190: command issue, and that no other register write issues a command. -/
def Obligations.CommandIssueLatchesOrOverruns : Prop :=
  ∀ (s : State) (c : W32),
    (s.busy = false → regWrite .cmd c s = { s with
      busy := true,
      pending := .command { word := c, arg0 := s.arg0, arg1 := s.arg1, thresh := s.thresh, srtemp := s.srtemp } }) ∧
    (s.busy = true → regWrite .cmd c s = { s with err := true, errCode := 5#4 }) ∧
    (∀ r x, r ≠ .cmd → (regWrite r x s).pending = s.pending ∧ (regWrite r x s).busy = s.busy)

/-- 60_exceptions.md R205: a CMD write while BUSY = 1 leaves the pending command unaffected: it completes with the same
effects, its own error, if any, then overwrites ERRCODE, and otherwise OVERRUN stays recorded. -/
def Obligations.OverrunLeavesThePendingCommand : Prop :=
  ∀ (s : State) (l : Latch) (c : W32), s.busy = true → s.pending = .command l →
    ∃ t u, engineStep s = .next t ∧ regWrite .cmd c s = { s with err := true, errCode := 5#4 } ∧
      engineStep (regWrite .cmd c s) = .next u ∧
      u = { t with err := u.err, errCode := u.errCode } ∧
      (decode l.word = .ok .softReset → u = t) ∧
      (decode l.word ≠ .ok .softReset → s.err = false →
        (t.err = true → u = t) ∧ (t.err = false → u.err = true ∧ u.errCode = 5#4))

/-- 43_control.md R191: the engine step, for PENDING empty, RESEED, an illegal word and the word of each command; the
command uses the latched operands; PENDING and BUSY are cleared at the end; and it happens after finitely many host
accesses: with supported accesses and engine turns only, a pending operation has completed after at most one step per
event and one more. That the events are a list in the state is the model's own choice (log entry 1). -/
def Obligations.EngineStepRunsThePendingOperation : Prop :=
  (∀ s : State, s.pending = .empty → engineStep s = .next s) ∧
  (∀ s : State, s.pending = .reseed →
    engineStep s = .next { s with
      units := { sr := seedSR [0#64], tf := seedTF [0#64] }, pending := .empty, busy := false }) ∧
  (∀ (s : State) (l : Latch), s.pending = .command l → IllegalWord l.word →
    engineStep s = .next { s with lastDraws := 0#21, err := true, errCode := 1#4, pending := .empty, busy := false }) ∧
  (∀ (s : State) (l : Latch) (i : Instr), s.pending = .command l → l.word = encode i →
    State.operands { s with lastDraws := 0#21 } = l ∧
    ∃ t, exec i { s with lastDraws := 0#21 } = .next t ∧
      engineStep s = .next { t with pending := .empty, busy := false }) ∧
  (∀ s : State, s.rstN = true → s.pending ≠ .empty →
    (∀ e ∈ s.inputs, e = .engineTurn ∨ ∃ off write x, off ∈ registerOffsets ∧ e = .access (wordAccess off write x)) →
    ∃ k t, k ≤ s.inputs.length + 1 ∧ Host.Core.run Sys2Proof.core k s = .next t ∧ t.pending = .empty ∧ t.busy = false)

/-- 43_control.md section 1: where the next thing to happen is the engine's turn and the latched word decodes to a
command, step is exec of that command, after LASTDRAWS <- 0 and followed by PENDING <- empty; BUSY <- 0; the event is
taken off the list (log entry 1). -/
def Obligations.StepRunsTheDecodedCommand : Prop :=
  ∀ (s : State) (l : Latch) (i : Instr) (rest : List Event), s.rstN = true → s.pending = .command l →
    decode l.word = .ok i →
    (s.inputs = .engineTurn :: rest →
      step s = mapNext (fun t => { t with pending := .empty, busy := false })
        (exec i { s with inputs := rest, lastDraws := 0#21 })) ∧
    (s.inputs = [] →
      step s = mapNext (fun t => { t with pending := .empty, busy := false }) (exec i { s with lastDraws := 0#21 }))

/-- 70_reset_and_hazards.md R242: a pending command reads ARG0, ARG1, THRESH and CTRL only through its snapshot: with
other values in those registers the engine step gives the same state with those values kept (and SOFT_RESET, which
writes them, gives the very same state). -/
def Obligations.SnapshotFixesThePendingCommand : Prop :=
  ∀ (s : State) (l : Latch) (a0 a1 th : W32) (tmp : Bool), s.pending = .command l →
    (decode l.word ≠ .ok .softReset →
      engineStep { s with arg0 := a0, arg1 := a1, thresh := th, srtemp := tmp } =
        mapNext (fun t => { t with arg0 := a0, arg1 := a1, thresh := th, srtemp := tmp }) (engineStep s)) ∧
    (decode l.word = .ok .softReset →
      engineStep { s with arg0 := a0, arg1 := a1, thresh := th, srtemp := tmp } = engineStep s)

/-- 43_control.md R192: NOP, its word, its illegal forms and its overrun. -/
def Obligations.NopOnlyClearsLastDraws : Prop :=
  decode 0x00000000#32 = .ok .nop ∧
  (∀ c : W32, c.extractLsb' 0 8 = 0x00#8 → c ≠ 0x00000000#32 → ∃ e, decode c = .error e) ∧
  (∀ s : State, exec .nop s = .next { s with lastDraws := 0#21 }) ∧
  (∀ s : State, s.busy = true → regWrite .cmd 0x00000000#32 s = { s with err := true, errCode := 5#4 })

-- Seeding

/-- 40_seeding.md R110: SEED_CLEAR, its word and its illegal forms. -/
def Obligations.SeedClearEmptiesTheBuffer : Prop :=
  decode 0x00000001#32 = .ok .seedClear ∧
  (∀ c : W32, c.extractLsb' 0 8 = 0x01#8 → c ≠ 0x00000001#32 → ∃ e, decode c = .error e) ∧
  (∀ s : State, ∃ n : Fin 313, n.val = 0 ∧
    exec .seedClear s = .next { s with seedLen := n, seedTrunc := false, lastDraws := 0#21 })

/-- 40_seeding.md R111: SEED_PUSH appends the latched {ARG1, ARG0}, or drops it and sets SEED_TRUNC when the buffer is
full. -/
def Obligations.SeedPushAppendsOrTruncates : Prop :=
  decode 0x00000002#32 = .ok .seedPush ∧
  (∀ c : W32, c.extractLsb' 0 8 = 0x02#8 → c ≠ 0x00000002#32 → ∃ e, decode c = .error e) ∧
  (∀ (s : State) (l : Latch), s.pending = .command l →
    (s.seedLen.val < 312 → ∃ (buf : Vector W64 312) (n : Fin 313),
      exec .seedPush s = .next { s with seedBuf := buf, seedLen := n, lastDraws := 0#21 } ∧
      n.val = s.seedLen.val + 1 ∧
      (readWord buf s.seedLen.val).toNat = l.arg1.toNat * 2 ^ 32 + l.arg0.toNat ∧
      ∀ k, k ≠ s.seedLen.val → readWord buf k = readWord s.seedBuf k) ∧
    (s.seedLen.val = 312 → exec .seedPush s = .next { s with seedTrunc := true, lastDraws := 0#21 }))

/-- 40_seeding.md R112, R113, R120: SEED_APPLY constructs the family it names from SEEDBUF[0 .. SEEDLEN-1], or from the
one zero word when SEEDLEN = 0, and leaves everything else, the other family among it, as it is; R112's example. -/
def Obligations.SeedApplyConstructsOneFamily : Prop :=
  decode 0x00000003#32 = .ok (.seedApply .sr) ∧ decode 0x00000103#32 = .ok (.seedApply .tf) ∧
  (∀ c : W32, c.extractLsb' 0 8 = 0x03#8 → c.extractLsb' 9 23 ≠ 0#23 → ∃ e, decode c = .error e) ∧
  (tfDraw (seedTF [0x12345#64, 0x23456#64, 0x34567#64, 0x45678#64])).1 = 0x64D79B552A559D7F#64 ∧
  ∀ (s : State) (key : List W64),
    key = (if s.seedLen.val = 0 then [0#64] else (List.range s.seedLen.val).map fun j => readWord s.seedBuf j) →
    1 ≤ key.length ∧ key.length ≤ 312 ∧
    exec (.seedApply .sr) s = .next { s with units := { sr := seedSR key, tf := s.units.tf }, lastDraws := 0#21 } ∧
    exec (.seedApply .tf) s = .next { s with units := { sr := s.units.sr, tf := seedTF key }, lastDraws := 0#21 }

/-- 40_seeding.md R114: the SR state word by word: the leading key words' low halves, then the extension recurrence with
lag L', and the cursor at 0. -/
def Obligations.SeedSrMeetsItsRecurrence : Prop :=
  ∀ key : List W64, key ≠ [] →
    (seedSR key).idx = 0 ∧
    (∀ j, j < 16 → j < key.length → readWord (seedSR key).v j = (key.getD j 0#64).setWidth 32) ∧
    (∀ i, i < 16 → key.length ≤ i →
      readWord (seedSR key).v i =
        1812433253#32 * (readWord (seedSR key).v (i - key.length) ^^^
          (readWord (seedSR key).v (i - key.length)).sshiftRight 30) + BitVec.ofNat 32 i)

/-- 40_seeding.md R115 (a) to (e). -/
def Obligations.SeedSrConsequences : Prop :=
  (∀ key : List W64, 16 ≤ key.length → ∀ j, j < 16 →
    readWord (seedSR key).v j = (key.getD j 0#64).setWidth 32) ∧
  (∀ key : List W64, 16 ≤ key.length → (∀ j, j < 16 → (key.getD j 0#64).setWidth 32 = 0#32) →
    (seedSR key).v = Vector.replicate 16 0#32 ∧ ∀ n tmp, (srDraw tmp (srAfter n (seedSR key))).1 = 0#32) ∧
  (∀ key : List W64, 1 ≤ key.length → key.length < 16 →
    (seedSR key).v ≠ Vector.replicate 16 0#32 ∧
    ((∀ j, j < key.length → (key.getD j 0#64).setWidth 32 = 0#32) →
      readWord (seedSR key).v key.length = BitVec.ofNat 32 key.length)) ∧
  (∀ s : State, s.seedLen.val = 0 →
    (seedSR s.seedKey).v.toList.take 4 = [0x00000000#32, 0x00000001#32, 0x6C078967#32, 0x714ACB41#32]) ∧
  (∀ key key' : List W64, key.length = key'.length →
    (∀ j, (key.getD j 0#64).setWidth 32 = (key'.getD j 0#64).setWidth 32) → seedSR key = seedSR key')

/-- 40_seeding.md R117: SeedTF word by word, phase by phase, for every key of 1 to 312 words. `a` is MT after INIT, `b`
after MIX1's pass over MT[1..311], `b0`, `b1` the words 0 and 1 at MIX1's end, `c` after MIX2's pass over MT[2..311]. -/
def Obligations.SeedTfMeetsItsRecurrence : Prop :=
  ∀ key : List W64, 1 ≤ key.length → key.length ≤ 312 →
    ∃ (a b c : Nat → W64) (b0 b1 : W64),
      a 0 = 19650218#64 ∧
      (∀ k, 1 ≤ k → k ≤ 311 →
        a k = 6364136223846793005#64 * (a (k - 1) ^^^ (a (k - 1) >>> 62)) + BitVec.ofNat 64 k) ∧
      b 0 = a 0 ∧
      (∀ i, 1 ≤ i → i ≤ 311 →
        b i = (a i ^^^ ((b (i - 1) ^^^ (b (i - 1) >>> 62)) * 3935559000370003845#64))
          + key.getD ((i - 1) % key.length) 0#64 + BitVec.ofNat 64 ((i - 1) % key.length)) ∧
      b0 = b 311 ∧
      b1 = (b 1 ^^^ ((b0 ^^^ (b0 >>> 62)) * 3935559000370003845#64))
          + key.getD (311 % key.length) 0#64 + BitVec.ofNat 64 (311 % key.length) ∧
      c 1 = b1 ∧
      (∀ i, 2 ≤ i → i ≤ 311 →
        c i = (b i ^^^ ((c (i - 1) ^^^ (c (i - 1) >>> 62)) * 2862933555777941757#64)) - BitVec.ofNat 64 i) ∧
      readWord (seedTF key).mt 0 = 0x8000000000000000#64 ∧
      readWord (seedTF key).mt 1 =
        (c 1 ^^^ ((c 311 ^^^ (c 311 >>> 62)) * 2862933555777941757#64)) - 1#64 ∧
      (∀ i, 2 ≤ i → i ≤ 311 → readWord (seedTF key).mt i = c i) ∧
      (seedTF key).idx.val = 312

/-- 40_seeding.md R119: MT[0] = 2^63 after SeedTF whatever the key, so the TF state is not all zero, and the empty seed's
first two words. -/
def Obligations.SeedTfIsFunctional : Prop :=
  (∀ key : List W64, readWord (seedTF key).mt 0 = 0x8000000000000000#64 ∧
    (seedTF key).mt ≠ Vector.replicate 312 0#64) ∧
  (∀ s : State, s.seedLen.val = 0 →
    (tfDraw (seedTF s.seedKey)).1 = 0x6DEE6E4C3BB91947#64 ∧
    (tfDraw (tfDraw (seedTF s.seedKey)).2).1 = 0xF9280DA49307BF0F#64)

-- The generator units

/-- 41_generators.md R131, R133: one SR state advance, word by word: the returned word, the two words written, the
fourteen unchanged, and the cursor, which is back after sixteen draws. -/
def Obligations.SrStepWritesTwoWords : Prop :=
  ∀ (u : SrUnit) (i im1 : Nat) (vi vm1 vm2 z0 z1 z2 z3 z4 : W32),
    i = u.idx.val → im1 = (i + 15) % 16 → vi = readWord u.v i → vm1 = readWord u.v ((i + 13) % 16) →
    vm2 = readWord u.v ((i + 9) % 16) → z0 = readWord u.v im1 →
    z1 = (vi ^^^ (vi <<< 16)) ^^^ (vm1 ^^^ (vm1 <<< 15)) → z2 = vm2 ^^^ (vm2 >>> 11) → z3 = z1 ^^^ z2 →
    z4 = (z0 ^^^ (z0 <<< 2)) ^^^ (z1 ^^^ (z1 <<< 18)) ^^^ (z2 <<< 28) ^^^ (z3 ^^^ ((z3 <<< 5) &&& 0xDA442D24#32)) →
    (srStep u).1 = z4 ∧ (srStep u).2.idx.val = im1 ∧
    readWord (srStep u).2.v i = z3 ∧ readWord (srStep u).2.v im1 = z4 ∧
    (∀ k, k ≠ i → k ≠ im1 → readWord (srStep u).2.v k = readWord u.v k) ∧
    (srAfter 16 u).idx = u.idx

/-- 41_generators.md R132: the SR output word with SRTEMP 1 and 0, the store the same with both, and TemperSR a
bijection. -/
def Obligations.SrDrawTempersWithoutMutating : Prop :=
  (∀ (u : SrUnit) (z t : W32), z = (srStep u).1 → t = z ^^^ ((z <<< 7) &&& 0xE46E1700#32) →
    (srDraw true u).1 = t ^^^ ((t <<< 15) &&& 0x9B868000#32) ∧ (srDraw false u).1 = z ∧
    (srDraw true u).2 = (srStep u).2 ∧ (srDraw false u).2 = (srStep u).2) ∧
  Function.Bijective temperSR

/-- 10_state.md R50: from the all-zero SR state every draw writes zeros and returns 0 with either SRTEMP value, SR_IDX
still advances, and no error is recorded. -/
def Obligations.AllZeroSrStateIsAFixedPoint : Prop :=
  (∀ u : SrUnit, u.v = Vector.replicate 16 0#32 → ∀ n tmp,
    (srAfter n u).v = Vector.replicate 16 0#32 ∧ (srDraw tmp (srAfter n u)).1 = 0#32 ∧
    (srAfter n u).idx.val = (u.idx.val + 15 * n) % 16) ∧
  (∀ s : State, s.units.sr.v = Vector.replicate 16 0#32 → ∃ idx : Fin 16,
    exec (.nextWord .sr) s = .next { s with
      units := { sr := { v := Vector.replicate 16 0#32, idx := idx }, tf := s.units.tf },
      res0 := 0#32, res1 := 0#32, lastDraws := 1#21 } ∧ idx.val = (s.units.sr.idx.val + 15) % 16)

/-- 41_generators.md R135: the in-place twist word by word: what each word reads of the old store and of the words
already rewritten. -/
def Obligations.TwistMeetsItsRecurrence : Prop :=
  ∀ (a : Vector W64 312) (i : Nat) (nxt mid y : W64), i < 312 →
    nxt = (if i = 311 then readWord (twist a) 0 else readWord a (i + 1)) →
    mid = (if i < 156 then readWord a (i + 156) else readWord (twist a) (i - 156)) →
    y = (readWord a i &&& 0xFFFFFFFF80000000#64) ||| (nxt &&& 0x000000007FFFFFFF#64) →
    readWord (twist a) i = mid ^^^ (y >>> 1) ^^^ (if y.getLsbD 0 then 0xB5026F5AA96619E9#64 else 0#64)

/-- 10_state.md section 6 (R51): the low 31 bits of MT[0] never enter the twist: two stores that differ in nothing else
are twisted into the same store. -/
def Obligations.TwistIgnoresTheLowBitsOfWordZero : Prop :=
  ∀ a b : Vector W64 312, (readWord a 0).extractLsb' 31 33 = (readWord b 0).extractLsb' 31 33 →
    (∀ k, 1 ≤ k → k < 312 → readWord a k = readWord b k) → twist a = twist b

/-- 41_generators.md R136, R137: one TF raw draw: it twists first when the cursor is at 312, returns the word at the
cursor tempered by the four shift and mask pairs, and leaves the stored word as it is. -/
def Obligations.TfDrawTempersTheStoredWord : Prop :=
  ∀ (u : TfUnit) (mt : Vector W64 312) (i : Nat) (x x1 x2 x3 : W64),
    (u.idx.val = 312 → mt = twist u.mt ∧ i = 0) → (u.idx.val ≠ 312 → mt = u.mt ∧ i = u.idx.val) →
    x = readWord mt i → x1 = x ^^^ ((x >>> 29) &&& 0x5555555555555555#64) →
    x2 = x1 ^^^ ((x1 <<< 17) &&& 0x71D67FFFEDA60000#64) → x3 = x2 ^^^ ((x2 <<< 37) &&& 0xFFF7EEE000000000#64) →
    (tfDraw u).1 = x3 ^^^ (x3 >>> 43) ∧ (tfDraw u).2.mt = mt ∧ (tfDraw u).2.idx.val = i + 1

/-- 41_generators.md R138: after seeding the first TF draw twists, draws 1 to 312 return the tempered words in index
order, draw 313 twists again, and TF_IDX after k draws. -/
def Obligations.TfDrawsReturnTheBlockInOrder : Prop :=
  (∀ key : List W64, (seedTF key).idx.val = 312) ∧
  ∀ u : TfUnit, u.idx.val = 312 →
    (∀ k, k < 312 → (tfDraw (tfAfter k u)).1 = temperTF (readWord (twist u.mt) k)) ∧
    (∀ k, 1 ≤ k → k ≤ 312 → (tfAfter k u).mt = twist u.mt) ∧
    (tfAfter 313 u).mt = twist (twist u.mt) ∧
    (∀ k, 1 ≤ k → (tfAfter k u).idx.val = (k - 1) % 312 + 1)

/-- 41_generators.md R141: NEXT_WORD makes one raw draw of its family with the latched SRTEMP and places it; it cannot
fail; the raw words of R141's example, from the state of the empty seed. -/
def Obligations.NextWordReturnsOneRawDraw : Prop :=
  decode 0x00000004#32 = .ok (.nextWord .sr) ∧ decode 0x00000104#32 = .ok (.nextWord .tf) ∧
  (∀ c : W32, c.extractLsb' 0 8 = 0x04#8 → c.extractLsb' 9 23 ≠ 0#23 → ∃ e, decode c = .error e) ∧
  (srDraw true (seedSR [0#64])).1 = 0xFEE5E74E#32 ∧ (tfDraw (seedTF [0#64])).1 = 0x6DEE6E4C3BB91947#64 ∧
  ∀ (s : State) (l : Latch), s.pending = .command l →
    exec (.nextWord .sr) s = .next { s with
      units := { sr := (srDraw l.srtemp s.units.sr).2, tf := s.units.tf },
      res0 := (srDraw l.srtemp s.units.sr).1, res1 := 0#32, lastDraws := 1#21 } ∧
    exec (.nextWord .tf) s = .next { s with
      units := { sr := s.units.sr, tf := (tfDraw s.units.tf).2 },
      res0 := (tfDraw s.units.tf).1.setWidth 32, res1 := ((tfDraw s.units.tf).1 >>> 32).setWidth 32,
      lastDraws := 1#21 }

/-- 30_encoding.md R94: a command with FAM = f reads and writes only the state store and cursor of family f: with
another unit in the other family's place it gives the same outcome with that unit kept. -/
def Obligations.CommandsTouchOnlyTheirFamily : Prop :=
  (∀ (i : Instr) (s : State) (tf : TfUnit),
    i ∈ [.seedApply .sr, .nextWord .sr, .nextBounded .sr, .nextBoundedPair .sr] →
    exec i { s with units := { sr := s.units.sr, tf := tf } } =
      mapNext (fun t => { t with units := { sr := t.units.sr, tf := tf } }) (exec i s)) ∧
  (∀ (i : Instr) (s : State) (sr : SrUnit),
    i ∈ [.seedApply .tf, .nextWord .tf, .nextBounded .tf, .nextBoundedPair .tf] →
    exec i { s with units := { sr := sr, tf := s.units.tf } } =
      mapNext (fun t => { t with units := { sr := sr, tf := t.units.tf } }) (exec i s))

-- The sampler

/-- 42_sampler.md R163: Bounded for every bound, threshold and cap: the sample is the first accepted word's, n counts
its draws, and the cap's error is where the words allowed are all rejected. `acceptSpec` is the paths by arithmetic. -/
def Obligations.BoundedFollowsThePseudocode : Prop :=
  ∀ (cap : Nat) (f : Fam) (tmp : Bool) (b t : Nat) (u : Units), 1 ≤ b → b ≤ 2 ^ 31 - 1 →
    (∀ n v, n < cap → (∀ j, j < n → acceptSpec b t (sampleAt f tmp j u) = none) →
      acceptSpec b t (sampleAt f tmp n u) = some v →
      bounded cap f tmp b t u = (unitsAfter f tmp (n + 1) u, some (v, n + 1))) ∧
    ((∀ j, j < cap → acceptSpec b t (sampleAt f tmp j u) = none) →
      bounded cap f tmp b t u = (unitsAfter f tmp cap u, none))

/-- 42_sampler.md R165: when the SMALL path is taken, the bounds on b and k that follow, and what it makes of each sample
word: lane 0, then lane 1, masked to k bits and accepted below b. -/
def Obligations.SmallPathMasksTwoLanes : Prop :=
  ∀ (b t k : Nat), 1 ≤ b → b &&& (b - 1) ≠ 0 → b < t → t ≤ 0x10000 → k = Nat.size (b - 1) →
    choosePath b t = .small ∧ 3 ≤ b ∧ b ≤ 0xFFFF ∧ 2 ^ (k - 1) < b ∧ b < 2 ^ k ∧ k ≤ 16 ∧
    ∀ x : W32, candidate .small b x =
      (if x.toNat % 2 ^ 16 % 2 ^ k < b then some (x.toNat % 2 ^ 16 % 2 ^ k)
       else if x.toNat / 2 ^ 16 % 2 ^ k < b then some (x.toNat / 2 ^ 16 % 2 ^ k) else none)

/-- 42_sampler.md R166: the FULL path: the limit, what is accepted, what it gives, and the two examples. -/
def Obligations.FullPathRejectsAboveTheLargestMultiple : Prop :=
  (∀ (b t : Nat) (x : W32), 1 ≤ b → b ≤ 2 ^ 31 - 1 → b &&& (b - 1) ≠ 0 → t ≤ b →
    candidate (choosePath b t) b x = (if x.toNat < 2 ^ 32 / b * b then some (x.toNat % b) else none) ∧
    fullLimit b = 2 ^ 32 / b * b) ∧
  (∀ x : W32, candidate .full (2 ^ 31 - 1) x = none ↔ x = 0xFFFFFFFE#32 ∨ x = 0xFFFFFFFF#32) ∧
  (∀ x : W32, candidate .full 3 x = none ↔ x = 0xFFFFFFFF#32)

/-- 42_sampler.md sections 3 and 4: NEXT_BOUNDED with a legal bound completes at the first accepted sample word, for
every path. -/
def Obligations.NextBoundedReturnsTheFirstAcceptedSample : Prop :=
  ∀ (f : Fam) (s : State) (l : Latch) (n v : Nat), s.pending = .command l →
    1 ≤ l.arg0.toNat → l.arg0.toNat < 2 ^ 31 → n < 0x100000 →
    (∀ j, j < n → acceptSpec l.arg0.toNat l.thresh.toNat (sampleAt f l.srtemp j s.units) = none) →
    acceptSpec l.arg0.toNat l.thresh.toNat (sampleAt f l.srtemp n s.units) = some v →
    exec (.nextBounded f) s = .next { s with
      units := unitsAfter f l.srtemp (n + 1) s.units,
      res0 := BitVec.ofNat 32 v, res1 := 0#32, lastDraws := BitVec.ofNat 21 (n + 1) }

/-- 42_sampler.md R164: a power-of-two bound takes one raw draw and gives the low k bits of the sample word; b = 1 gives
0 and still draws. -/
def Obligations.PowerOfTwoBoundNeedsOneDraw : Prop :=
  ∀ (f : Fam) (s : State) (l : Latch) (k : Nat), s.pending = .command l → k ≤ 30 → l.arg0.toNat = 2 ^ k →
    exec (.nextBounded f) s = .next { s with
      units := unitsAfter f l.srtemp 1 s.units,
      res0 := sampleAt f l.srtemp 0 s.units &&& (l.arg0 - 1#32), res1 := 0#32, lastDraws := 1#21 } ∧
    (k = 0 → sampleAt f l.srtemp 0 s.units &&& (l.arg0 - 1#32) = 0#32)

/-- 42_sampler.md section 1: every value returned is in [0, b), for every raw stream, and takes between one draw and the
cap. -/
def Obligations.SamplesStayBelowTheBound : Prop :=
  ∀ (cap : Nat) (f : Fam) (tmp : Bool) (b t : Nat) (u u' : Units) (v n : Nat), 1 ≤ b → b ≤ 2 ^ 31 - 1 →
    bounded cap f tmp b t u = (u', some (v, n)) → v < b ∧ 1 ≤ n ∧ n ≤ cap

/-- 42_sampler.md section 3, exactness: for every legal bound and every legal threshold, every value below the bound is
the sample of equally many of the 2^32 sample words, and of at least one. -/
def Obligations.SamplerIsExactlyUniform : Prop :=
  ∀ (b t v w : Nat), 1 ≤ b → b ≤ 2 ^ 31 - 1 → t ≤ 0x10000 → v < b → w < b →
    Set.ncard { x : W32 | candidate (choosePath b t) b x = some v } =
      Set.ncard { x : W32 | candidate (choosePath b t) b x = some w } ∧
    0 < Set.ncard { x : W32 | candidate (choosePath b t) b x = some v }

/-- 60_exceptions.md R206: when every word the cap allows is rejected, the draws stay made, LASTDRAWS is the cap,
ERRCODE is 4 and RES0, RES1 are unchanged. Stated for every cap (U9); the two sampling commands run with 2^20. -/
def Obligations.RejectCapEndsTheCommand : Prop :=
  (∀ (cap b : Nat) (f : Fam) (place : Nat → W32 × W32) (s : State) (l : Latch), s.pending = .command l →
    1 ≤ b → b ≤ 2 ^ 31 - 1 →
    (∀ j, j < cap → acceptSpec b l.thresh.toNat (sampleAt f l.srtemp j s.units) = none) →
    runSample cap f b place s = { s with
      units := unitsAfter f l.srtemp cap s.units,
      lastDraws := BitVec.ofNat 21 cap, err := true, errCode := 4#4 }) ∧
  (∀ (f : Fam) (s : State) (l : Latch), s.pending = .command l → 1 ≤ l.arg0.toNat → l.arg0.toNat < 2 ^ 31 →
    exec (.nextBounded f) s = .next (runSample 0x100000 f l.arg0.toNat placeSample s)) ∧
  (∀ (f : Fam) (s : State) (l : Latch), s.pending = .command l → 1 ≤ l.arg0.toNat → l.arg0.toNat < 2 ^ 31 →
    1 ≤ l.arg1.toNat → l.arg1.toNat < 2 ^ 31 → l.arg0.toNat * l.arg1.toNat < 2 ^ 31 →
    exec (.nextBoundedPair f) s =
      .next (runSample 0x100000 f (l.arg0.toNat * l.arg1.toNat) (placePair l.arg1.toNat) s))

/-- 60_exceptions.md R203: a latched ARG0 of 0 or with bit 31 set raises INVALID_BOUND before any draw. -/
def Obligations.NonPositiveBoundRaisesInvalidBound : Prop :=
  ∀ (f : Fam) (s : State) (l : Latch), s.pending = .command l → (l.arg0.toNat = 0 ∨ 2 ^ 31 ≤ l.arg0.toNat) →
    exec (.nextBounded f) s = .next { s with lastDraws := 0#21, err := true, errCode := 2#4 }

/-- 42_sampler.md section 4: NEXT_BOUNDED_PAIR with a legal pair completes at the first accepted sample word for the
exact product, with RES0 = v / b2 and RES1 = v mod b2. -/
def Obligations.NextBoundedPairSplitsOneSample : Prop :=
  ∀ (f : Fam) (s : State) (l : Latch) (n v : Nat), s.pending = .command l →
    1 ≤ l.arg0.toNat → l.arg0.toNat < 2 ^ 31 → 1 ≤ l.arg1.toNat → l.arg1.toNat < 2 ^ 31 →
    l.arg0.toNat * l.arg1.toNat < 2 ^ 31 → n < 0x100000 →
    (∀ j, j < n →
      acceptSpec (l.arg0.toNat * l.arg1.toNat) l.thresh.toNat (sampleAt f l.srtemp j s.units) = none) →
    acceptSpec (l.arg0.toNat * l.arg1.toNat) l.thresh.toNat (sampleAt f l.srtemp n s.units) = some v →
    exec (.nextBoundedPair f) s = .next { s with
      units := unitsAfter f l.srtemp (n + 1) s.units,
      res0 := BitVec.ofNat 32 (v / l.arg1.toNat), res1 := BitVec.ofNat 32 (v % l.arg1.toNat),
      lastDraws := BitVec.ofNat 21 (n + 1) }

/-- 60_exceptions.md R204: INVALID_PAIR when either latched bound is non-positive or their exact product is at least
2^31, before any draw. -/
def Obligations.BadPairRaisesInvalidPair : Prop :=
  ∀ (f : Fam) (s : State) (l : Latch), s.pending = .command l →
    (l.arg0.toNat = 0 ∨ 2 ^ 31 ≤ l.arg0.toNat ∨ l.arg1.toNat = 0 ∨ 2 ^ 31 ≤ l.arg1.toNat ∨
      2 ^ 31 ≤ l.arg0.toNat * l.arg1.toNat) →
    exec (.nextBoundedPair f) s = .next { s with lastDraws := 0#21, err := true, errCode := 3#4 }

/-- 42_sampler.md section 4, pair properties: the map v -> (v / b2, v mod b2) is a bijection from [0, b1*b2) onto
[0, b1) x [0, b2), as the result registers hold it. -/
def Obligations.PairDecompositionIsABijection : Prop :=
  ∀ b1 b2 : Nat, 1 ≤ b1 → 1 ≤ b2 → b1 * b2 < 2 ^ 31 →
    (∀ v, v < b1 * b2 → (placePair b2 v).1.toNat < b1 ∧ (placePair b2 v).2.toNat < b2) ∧
    (∀ i1 i2, i1 < b1 → i2 < b2 →
      ∃! v, v < b1 * b2 ∧ placePair b2 v = (BitVec.ofNat 32 i1, BitVec.ofNat 32 i2))

-- Errors

/-- 60_exceptions.md R208: the order of the checks: OVERRUN at the write whatever the word; ILLEGAL_CMD before the
operand checks; INVALID_BOUND and INVALID_PAIR before the first draw; REJECT_CAP_EXCEEDED only during the draws. -/
def Obligations.ErrorChecksInOrder : Prop :=
  (∀ (s : State) (c : W32), s.busy = true → regWrite .cmd c s = { s with err := true, errCode := 5#4 }) ∧
  (∀ (s : State) (l : Latch), s.pending = .command l → IllegalWord l.word →
    engineStep s = .next { s with lastDraws := 0#21, err := true, errCode := 1#4, pending := .empty, busy := false }) ∧
  (∀ (f : Fam) (s : State) (l : Latch), s.pending = .command l → l.word = encode (.nextBounded f) →
    (l.arg0.toNat = 0 ∨ 2 ^ 31 ≤ l.arg0.toNat) →
    engineStep s = .next { s with lastDraws := 0#21, err := true, errCode := 2#4, pending := .empty, busy := false }) ∧
  (∀ (f : Fam) (s : State) (l : Latch), s.pending = .command l → l.word = encode (.nextBoundedPair f) →
    (l.arg0.toNat = 0 ∨ 2 ^ 31 ≤ l.arg0.toNat ∨ l.arg1.toNat = 0 ∨ 2 ^ 31 ≤ l.arg1.toNat ∨
      2 ^ 31 ≤ l.arg0.toNat * l.arg1.toNat) →
    engineStep s = .next { s with lastDraws := 0#21, err := true, errCode := 3#4, pending := .empty, busy := false }) ∧
  (∀ (i : Instr) (s t : State), exec i s = .next t → s.err = false → t.err = true →
    t.errCode = 2#4 ∨ t.errCode = 3#4 ∨ (t.errCode = 4#4 ∧ t.lastDraws = BitVec.ofNat 21 0x100000))

/-- 60_exceptions.md R212: commands are accepted and performed whether ERR is 0 or 1, with the same effects. -/
def Obligations.ErrorsDoNotBlockCommands : Prop :=
  (∀ (s : State) (e : Bool) (code : BitVec 4) (c : W32),
    (regWrite .cmd c { s with err := e, errCode := code }).pending = (regWrite .cmd c s).pending ∧
    (regWrite .cmd c { s with err := e, errCode := code }).busy = (regWrite .cmd c s).busy) ∧
  (∀ (i : Instr) (s : State) (e : Bool) (code : BitVec 4), ∃ t u,
    exec i s = .next t ∧ exec i { s with err := e, errCode := code } = .next u ∧
    { u with err := t.err, errCode := t.errCode } = t) ∧
  (∀ (s : State) (x : W32), x.getLsbD 1 = true →
    (regWrite .status x s).err = false ∧ (regWrite .status x s).errCode = 0#4)

-- The whole machine

/-- 10_state.md R48: every step keeps the invariants. -/
def Obligations.StepKeepsTheInvariants : Prop :=
  ∀ s t : State, s.Inv → step s = .next t → t.Inv

/-- 10_state.md section 6: the state after reset meets the invariants. -/
def Obligations.ResetMeetsTheInvariants : Prop := State.reset.Inv

/-- 10_state.md R41, R42: RES0 and RES1 change only when NEXT_WORD, NEXT_BOUNDED or NEXT_BOUNDED_PAIR completes without
an error, and by reset (SOFT_RESET among it). -/
def Obligations.ResultsChangeOnlyByDrawsAndReset : Prop :=
  ∀ s t : State, step s = .next t → (t.res0 ≠ s.res0 ∨ t.res1 ≠ s.res1) →
    s.ResetNext ∨
    (s.EngineNext ∧ ∃ l i, s.pending = .command l ∧ decode l.word = .ok i ∧
      (i = .softReset ∨
        (i ∈ [.nextWord .sr, .nextWord .tf, .nextBounded .sr, .nextBounded .tf, .nextBoundedPair .sr,
            .nextBoundedPair .tf] ∧ t.err = s.err ∧ t.errCode = s.errCode)))

/-- 10_state.md sections 1 and 2: the generator units change only by the agents that R22 and the rows of R20 for SR_IDX,
MT and TF_IDX name. SEEDBUF changes by SEED_PUSH, as its row says, and at a reset or SOFT_RESET, which is the model's own
choice for contents that R231 calls unspecified (log entry 5). -/
def Obligations.StoresChangeOnlyByTheirWriters : Prop :=
  ∀ s t : State, step s = .next t →
    (t.units.sr ≠ s.units.sr → s.ResetNext ∨ (s.EngineNext ∧ (s.pending = .reseed ∨
      ∃ l i, s.pending = .command l ∧ decode l.word = .ok i ∧
        i ∈ [.seedApply .sr, .nextWord .sr, .nextBounded .sr, .nextBoundedPair .sr, .softReset]))) ∧
    (t.units.tf ≠ s.units.tf → s.ResetNext ∨ (s.EngineNext ∧ (s.pending = .reseed ∨
      ∃ l i, s.pending = .command l ∧ decode l.word = .ok i ∧
        i ∈ [.seedApply .tf, .nextWord .tf, .nextBounded .tf, .nextBoundedPair .tf, .softReset]))) ∧
    (t.seedBuf ≠ s.seedBuf → s.ResetNext ∨ (s.EngineNext ∧
      ∃ l i, s.pending = .command l ∧ decode l.word = .ok i ∧ i ∈ [.seedPush, .softReset]))

/-- 43_control.md section 1: SOFT_RESET's frame, in the model's own terms: the pin and the events to come are no command's
to change (log entries 8 and 1), the port's read data is kept (log entry 10), and SEEDBUF and the model's counter end as
after a hardware reset and the RESEED step (log entries 5 and 4). -/
def Obligations.SoftResetKeepsPinPortAndEvents : Prop :=
  ∀ s : State, ∃ t, exec .softReset s = .next t ∧ t.rstN = s.rstN ∧ t.rdata = s.rdata ∧ t.inputs = s.inputs ∧
    engineStep (hardReset s) = .next { t with rstN := true }
end

