-- ==== Sys2Proof/Laws/Decode.lean ====
section
/-! SUPPORT. What an accepted command word looks like, and that the byte lanes of a word give the word back. -/

namespace Sys2Proof

/-- An accepted word has its reserved bits 0 and decodes by its opcode. -/
theorem decode_ok {c : W32} {i : Instr} (h : decode c = .ok i) :
    c.extractLsb' 9 23 = 0#23 ∧ decodeOpcode c = .ok i := by
  unfold decode at h
  split at h
  · exact ⟨‹_›, h⟩
  · cases h

/-- A familyless command is accepted exactly with FAM = 0. -/
theorem familyless_ok {c : W32} {i j : Instr} (h : familyless c i = .ok j) : c.getLsbD 8 = false ∧ i = j := by
  unfold familyless at h
  split at h
  · cases h
  · exact ⟨Bool.eq_false_iff.mpr ‹_›, by injection h⟩

/-- The four lanes of a word, put together, are the word (20_memory.md R65). -/
theorem wordOfLanes_lane (c : W32) : wordOfLanes (lane c 0) (lane c 1) (lane c 2) (lane c 3) = c := by
  apply BitVec.eq_of_getLsbD_eq
  intro i hi
  simp only [wordOfLanes, lane, BitVec.getLsbD_append, BitVec.getLsbD_extractLsb']
  have key : ∀ j k : Nat, j < 8 → k + j = i → (decide (j < 8) && c.getLsbD (k + j)) = c.getLsbD i := by
    rintro j k hj rfl
    simp [hj]
  split
  · exact key i 0 (by omega) (by omega)
  split
  · exact key (i - 8) 8 (by omega) (by omega)
  split
  · exact key (i - 8 - 8) 16 (by omega) (by omega)
  · exact key (i - 8 - 8 - 8) 24 (by omega) (by omega)

end Sys2Proof
end

