-- ==== Sys2Proof/Laws/State.lean ====
section
/-! SUPPORT. What every named update of State does to every field: one lemma per field per update. -/

namespace Sys2Proof.Machine

-- setUnits
@[simp] theorem State.setUnits_units (s : State) (u : Units) : (s.setUnits u).units = u := rfl
@[simp] theorem State.setUnits_seedBuf (s : State) (u : Units) : (s.setUnits u).seedBuf = s.seedBuf := rfl
@[simp] theorem State.setUnits_seedLen (s : State) (u : Units) : (s.setUnits u).seedLen = s.seedLen := rfl
@[simp] theorem State.setUnits_seedTrunc (s : State) (u : Units) : (s.setUnits u).seedTrunc = s.seedTrunc := rfl
@[simp] theorem State.setUnits_srtemp (s : State) (u : Units) : (s.setUnits u).srtemp = s.srtemp := rfl
@[simp] theorem State.setUnits_thresh (s : State) (u : Units) : (s.setUnits u).thresh = s.thresh := rfl
@[simp] theorem State.setUnits_arg0 (s : State) (u : Units) : (s.setUnits u).arg0 = s.arg0 := rfl
@[simp] theorem State.setUnits_arg1 (s : State) (u : Units) : (s.setUnits u).arg1 = s.arg1 := rfl
@[simp] theorem State.setUnits_res0 (s : State) (u : Units) : (s.setUnits u).res0 = s.res0 := rfl
@[simp] theorem State.setUnits_res1 (s : State) (u : Units) : (s.setUnits u).res1 = s.res1 := rfl
@[simp] theorem State.setUnits_lastDraws (s : State) (u : Units) : (s.setUnits u).lastDraws = s.lastDraws := rfl
@[simp] theorem State.setUnits_err (s : State) (u : Units) : (s.setUnits u).err = s.err := rfl
@[simp] theorem State.setUnits_errCode (s : State) (u : Units) : (s.setUnits u).errCode = s.errCode := rfl
@[simp] theorem State.setUnits_busy (s : State) (u : Units) : (s.setUnits u).busy = s.busy := rfl
@[simp] theorem State.setUnits_pending (s : State) (u : Units) : (s.setUnits u).pending = s.pending := rfl
@[simp] theorem State.setUnits_rstN (s : State) (u : Units) : (s.setUnits u).rstN = s.rstN := rfl
@[simp] theorem State.setUnits_rdata (s : State) (u : Units) : (s.setUnits u).rdata = s.rdata := rfl
@[simp] theorem State.setUnits_inputs (s : State) (u : Units) : (s.setUnits u).inputs = s.inputs := rfl
@[simp] theorem State.setUnits_freeCount (s : State) (u : Units) : (s.setUnits u).freeCount = s.freeCount := rfl

-- setLastDraws
@[simp] theorem State.setLastDraws_units (s : State) (n : Nat) : (s.setLastDraws n).units = s.units := rfl
@[simp] theorem State.setLastDraws_seedBuf (s : State) (n : Nat) : (s.setLastDraws n).seedBuf = s.seedBuf := rfl
@[simp] theorem State.setLastDraws_seedLen (s : State) (n : Nat) : (s.setLastDraws n).seedLen = s.seedLen := rfl
@[simp] theorem State.setLastDraws_seedTrunc (s : State) (n : Nat) : (s.setLastDraws n).seedTrunc = s.seedTrunc := rfl
@[simp] theorem State.setLastDraws_srtemp (s : State) (n : Nat) : (s.setLastDraws n).srtemp = s.srtemp := rfl
@[simp] theorem State.setLastDraws_thresh (s : State) (n : Nat) : (s.setLastDraws n).thresh = s.thresh := rfl
@[simp] theorem State.setLastDraws_arg0 (s : State) (n : Nat) : (s.setLastDraws n).arg0 = s.arg0 := rfl
@[simp] theorem State.setLastDraws_arg1 (s : State) (n : Nat) : (s.setLastDraws n).arg1 = s.arg1 := rfl
@[simp] theorem State.setLastDraws_res0 (s : State) (n : Nat) : (s.setLastDraws n).res0 = s.res0 := rfl
@[simp] theorem State.setLastDraws_res1 (s : State) (n : Nat) : (s.setLastDraws n).res1 = s.res1 := rfl
@[simp] theorem State.setLastDraws_lastDraws (s : State) (n : Nat) : (s.setLastDraws n).lastDraws = BitVec.ofNat 21 n := rfl
@[simp] theorem State.setLastDraws_err (s : State) (n : Nat) : (s.setLastDraws n).err = s.err := rfl
@[simp] theorem State.setLastDraws_errCode (s : State) (n : Nat) : (s.setLastDraws n).errCode = s.errCode := rfl
@[simp] theorem State.setLastDraws_busy (s : State) (n : Nat) : (s.setLastDraws n).busy = s.busy := rfl
@[simp] theorem State.setLastDraws_pending (s : State) (n : Nat) : (s.setLastDraws n).pending = s.pending := rfl
@[simp] theorem State.setLastDraws_rstN (s : State) (n : Nat) : (s.setLastDraws n).rstN = s.rstN := rfl
@[simp] theorem State.setLastDraws_rdata (s : State) (n : Nat) : (s.setLastDraws n).rdata = s.rdata := rfl
@[simp] theorem State.setLastDraws_inputs (s : State) (n : Nat) : (s.setLastDraws n).inputs = s.inputs := rfl
@[simp] theorem State.setLastDraws_freeCount (s : State) (n : Nat) : (s.setLastDraws n).freeCount = s.freeCount := rfl

-- setResults
@[simp] theorem State.setResults_units (s : State) (x y : W32) : (s.setResults x y).units = s.units := rfl
@[simp] theorem State.setResults_seedBuf (s : State) (x y : W32) : (s.setResults x y).seedBuf = s.seedBuf := rfl
@[simp] theorem State.setResults_seedLen (s : State) (x y : W32) : (s.setResults x y).seedLen = s.seedLen := rfl
@[simp] theorem State.setResults_seedTrunc (s : State) (x y : W32) : (s.setResults x y).seedTrunc = s.seedTrunc := rfl
@[simp] theorem State.setResults_srtemp (s : State) (x y : W32) : (s.setResults x y).srtemp = s.srtemp := rfl
@[simp] theorem State.setResults_thresh (s : State) (x y : W32) : (s.setResults x y).thresh = s.thresh := rfl
@[simp] theorem State.setResults_arg0 (s : State) (x y : W32) : (s.setResults x y).arg0 = s.arg0 := rfl
@[simp] theorem State.setResults_arg1 (s : State) (x y : W32) : (s.setResults x y).arg1 = s.arg1 := rfl
@[simp] theorem State.setResults_res0 (s : State) (x y : W32) : (s.setResults x y).res0 = x := rfl
@[simp] theorem State.setResults_res1 (s : State) (x y : W32) : (s.setResults x y).res1 = y := rfl
@[simp] theorem State.setResults_lastDraws (s : State) (x y : W32) : (s.setResults x y).lastDraws = s.lastDraws := rfl
@[simp] theorem State.setResults_err (s : State) (x y : W32) : (s.setResults x y).err = s.err := rfl
@[simp] theorem State.setResults_errCode (s : State) (x y : W32) : (s.setResults x y).errCode = s.errCode := rfl
@[simp] theorem State.setResults_busy (s : State) (x y : W32) : (s.setResults x y).busy = s.busy := rfl
@[simp] theorem State.setResults_pending (s : State) (x y : W32) : (s.setResults x y).pending = s.pending := rfl
@[simp] theorem State.setResults_rstN (s : State) (x y : W32) : (s.setResults x y).rstN = s.rstN := rfl
@[simp] theorem State.setResults_rdata (s : State) (x y : W32) : (s.setResults x y).rdata = s.rdata := rfl
@[simp] theorem State.setResults_inputs (s : State) (x y : W32) : (s.setResults x y).inputs = s.inputs := rfl
@[simp] theorem State.setResults_freeCount (s : State) (x y : W32) : (s.setResults x y).freeCount = s.freeCount := rfl

-- setSrtemp
@[simp] theorem State.setSrtemp_units (s : State) (b : Bool) : (s.setSrtemp b).units = s.units := rfl
@[simp] theorem State.setSrtemp_seedBuf (s : State) (b : Bool) : (s.setSrtemp b).seedBuf = s.seedBuf := rfl
@[simp] theorem State.setSrtemp_seedLen (s : State) (b : Bool) : (s.setSrtemp b).seedLen = s.seedLen := rfl
@[simp] theorem State.setSrtemp_seedTrunc (s : State) (b : Bool) : (s.setSrtemp b).seedTrunc = s.seedTrunc := rfl
@[simp] theorem State.setSrtemp_srtemp (s : State) (b : Bool) : (s.setSrtemp b).srtemp = b := rfl
@[simp] theorem State.setSrtemp_thresh (s : State) (b : Bool) : (s.setSrtemp b).thresh = s.thresh := rfl
@[simp] theorem State.setSrtemp_arg0 (s : State) (b : Bool) : (s.setSrtemp b).arg0 = s.arg0 := rfl
@[simp] theorem State.setSrtemp_arg1 (s : State) (b : Bool) : (s.setSrtemp b).arg1 = s.arg1 := rfl
@[simp] theorem State.setSrtemp_res0 (s : State) (b : Bool) : (s.setSrtemp b).res0 = s.res0 := rfl
@[simp] theorem State.setSrtemp_res1 (s : State) (b : Bool) : (s.setSrtemp b).res1 = s.res1 := rfl
@[simp] theorem State.setSrtemp_lastDraws (s : State) (b : Bool) : (s.setSrtemp b).lastDraws = s.lastDraws := rfl
@[simp] theorem State.setSrtemp_err (s : State) (b : Bool) : (s.setSrtemp b).err = s.err := rfl
@[simp] theorem State.setSrtemp_errCode (s : State) (b : Bool) : (s.setSrtemp b).errCode = s.errCode := rfl
@[simp] theorem State.setSrtemp_busy (s : State) (b : Bool) : (s.setSrtemp b).busy = s.busy := rfl
@[simp] theorem State.setSrtemp_pending (s : State) (b : Bool) : (s.setSrtemp b).pending = s.pending := rfl
@[simp] theorem State.setSrtemp_rstN (s : State) (b : Bool) : (s.setSrtemp b).rstN = s.rstN := rfl
@[simp] theorem State.setSrtemp_rdata (s : State) (b : Bool) : (s.setSrtemp b).rdata = s.rdata := rfl
@[simp] theorem State.setSrtemp_inputs (s : State) (b : Bool) : (s.setSrtemp b).inputs = s.inputs := rfl
@[simp] theorem State.setSrtemp_freeCount (s : State) (b : Bool) : (s.setSrtemp b).freeCount = s.freeCount := rfl

-- setThresh
@[simp] theorem State.setThresh_units (s : State) (x : W32) : (s.setThresh x).units = s.units := rfl
@[simp] theorem State.setThresh_seedBuf (s : State) (x : W32) : (s.setThresh x).seedBuf = s.seedBuf := rfl
@[simp] theorem State.setThresh_seedLen (s : State) (x : W32) : (s.setThresh x).seedLen = s.seedLen := rfl
@[simp] theorem State.setThresh_seedTrunc (s : State) (x : W32) : (s.setThresh x).seedTrunc = s.seedTrunc := rfl
@[simp] theorem State.setThresh_srtemp (s : State) (x : W32) : (s.setThresh x).srtemp = s.srtemp := rfl
@[simp] theorem State.setThresh_thresh (s : State) (x : W32) : (s.setThresh x).thresh = x := rfl
@[simp] theorem State.setThresh_arg0 (s : State) (x : W32) : (s.setThresh x).arg0 = s.arg0 := rfl
@[simp] theorem State.setThresh_arg1 (s : State) (x : W32) : (s.setThresh x).arg1 = s.arg1 := rfl
@[simp] theorem State.setThresh_res0 (s : State) (x : W32) : (s.setThresh x).res0 = s.res0 := rfl
@[simp] theorem State.setThresh_res1 (s : State) (x : W32) : (s.setThresh x).res1 = s.res1 := rfl
@[simp] theorem State.setThresh_lastDraws (s : State) (x : W32) : (s.setThresh x).lastDraws = s.lastDraws := rfl
@[simp] theorem State.setThresh_err (s : State) (x : W32) : (s.setThresh x).err = s.err := rfl
@[simp] theorem State.setThresh_errCode (s : State) (x : W32) : (s.setThresh x).errCode = s.errCode := rfl
@[simp] theorem State.setThresh_busy (s : State) (x : W32) : (s.setThresh x).busy = s.busy := rfl
@[simp] theorem State.setThresh_pending (s : State) (x : W32) : (s.setThresh x).pending = s.pending := rfl
@[simp] theorem State.setThresh_rstN (s : State) (x : W32) : (s.setThresh x).rstN = s.rstN := rfl
@[simp] theorem State.setThresh_rdata (s : State) (x : W32) : (s.setThresh x).rdata = s.rdata := rfl
@[simp] theorem State.setThresh_inputs (s : State) (x : W32) : (s.setThresh x).inputs = s.inputs := rfl
@[simp] theorem State.setThresh_freeCount (s : State) (x : W32) : (s.setThresh x).freeCount = s.freeCount := rfl

-- setArg0
@[simp] theorem State.setArg0_units (s : State) (x : W32) : (s.setArg0 x).units = s.units := rfl
@[simp] theorem State.setArg0_seedBuf (s : State) (x : W32) : (s.setArg0 x).seedBuf = s.seedBuf := rfl
@[simp] theorem State.setArg0_seedLen (s : State) (x : W32) : (s.setArg0 x).seedLen = s.seedLen := rfl
@[simp] theorem State.setArg0_seedTrunc (s : State) (x : W32) : (s.setArg0 x).seedTrunc = s.seedTrunc := rfl
@[simp] theorem State.setArg0_srtemp (s : State) (x : W32) : (s.setArg0 x).srtemp = s.srtemp := rfl
@[simp] theorem State.setArg0_thresh (s : State) (x : W32) : (s.setArg0 x).thresh = s.thresh := rfl
@[simp] theorem State.setArg0_arg0 (s : State) (x : W32) : (s.setArg0 x).arg0 = x := rfl
@[simp] theorem State.setArg0_arg1 (s : State) (x : W32) : (s.setArg0 x).arg1 = s.arg1 := rfl
@[simp] theorem State.setArg0_res0 (s : State) (x : W32) : (s.setArg0 x).res0 = s.res0 := rfl
@[simp] theorem State.setArg0_res1 (s : State) (x : W32) : (s.setArg0 x).res1 = s.res1 := rfl
@[simp] theorem State.setArg0_lastDraws (s : State) (x : W32) : (s.setArg0 x).lastDraws = s.lastDraws := rfl
@[simp] theorem State.setArg0_err (s : State) (x : W32) : (s.setArg0 x).err = s.err := rfl
@[simp] theorem State.setArg0_errCode (s : State) (x : W32) : (s.setArg0 x).errCode = s.errCode := rfl
@[simp] theorem State.setArg0_busy (s : State) (x : W32) : (s.setArg0 x).busy = s.busy := rfl
@[simp] theorem State.setArg0_pending (s : State) (x : W32) : (s.setArg0 x).pending = s.pending := rfl
@[simp] theorem State.setArg0_rstN (s : State) (x : W32) : (s.setArg0 x).rstN = s.rstN := rfl
@[simp] theorem State.setArg0_rdata (s : State) (x : W32) : (s.setArg0 x).rdata = s.rdata := rfl
@[simp] theorem State.setArg0_inputs (s : State) (x : W32) : (s.setArg0 x).inputs = s.inputs := rfl
@[simp] theorem State.setArg0_freeCount (s : State) (x : W32) : (s.setArg0 x).freeCount = s.freeCount := rfl

-- setArg1
@[simp] theorem State.setArg1_units (s : State) (x : W32) : (s.setArg1 x).units = s.units := rfl
@[simp] theorem State.setArg1_seedBuf (s : State) (x : W32) : (s.setArg1 x).seedBuf = s.seedBuf := rfl
@[simp] theorem State.setArg1_seedLen (s : State) (x : W32) : (s.setArg1 x).seedLen = s.seedLen := rfl
@[simp] theorem State.setArg1_seedTrunc (s : State) (x : W32) : (s.setArg1 x).seedTrunc = s.seedTrunc := rfl
@[simp] theorem State.setArg1_srtemp (s : State) (x : W32) : (s.setArg1 x).srtemp = s.srtemp := rfl
@[simp] theorem State.setArg1_thresh (s : State) (x : W32) : (s.setArg1 x).thresh = s.thresh := rfl
@[simp] theorem State.setArg1_arg0 (s : State) (x : W32) : (s.setArg1 x).arg0 = s.arg0 := rfl
@[simp] theorem State.setArg1_arg1 (s : State) (x : W32) : (s.setArg1 x).arg1 = x := rfl
@[simp] theorem State.setArg1_res0 (s : State) (x : W32) : (s.setArg1 x).res0 = s.res0 := rfl
@[simp] theorem State.setArg1_res1 (s : State) (x : W32) : (s.setArg1 x).res1 = s.res1 := rfl
@[simp] theorem State.setArg1_lastDraws (s : State) (x : W32) : (s.setArg1 x).lastDraws = s.lastDraws := rfl
@[simp] theorem State.setArg1_err (s : State) (x : W32) : (s.setArg1 x).err = s.err := rfl
@[simp] theorem State.setArg1_errCode (s : State) (x : W32) : (s.setArg1 x).errCode = s.errCode := rfl
@[simp] theorem State.setArg1_busy (s : State) (x : W32) : (s.setArg1 x).busy = s.busy := rfl
@[simp] theorem State.setArg1_pending (s : State) (x : W32) : (s.setArg1 x).pending = s.pending := rfl
@[simp] theorem State.setArg1_rstN (s : State) (x : W32) : (s.setArg1 x).rstN = s.rstN := rfl
@[simp] theorem State.setArg1_rdata (s : State) (x : W32) : (s.setArg1 x).rdata = s.rdata := rfl
@[simp] theorem State.setArg1_inputs (s : State) (x : W32) : (s.setArg1 x).inputs = s.inputs := rfl
@[simp] theorem State.setArg1_freeCount (s : State) (x : W32) : (s.setArg1 x).freeCount = s.freeCount := rfl

-- setRdata
@[simp] theorem State.setRdata_units (s : State) (x : W32) : (s.setRdata x).units = s.units := rfl
@[simp] theorem State.setRdata_seedBuf (s : State) (x : W32) : (s.setRdata x).seedBuf = s.seedBuf := rfl
@[simp] theorem State.setRdata_seedLen (s : State) (x : W32) : (s.setRdata x).seedLen = s.seedLen := rfl
@[simp] theorem State.setRdata_seedTrunc (s : State) (x : W32) : (s.setRdata x).seedTrunc = s.seedTrunc := rfl
@[simp] theorem State.setRdata_srtemp (s : State) (x : W32) : (s.setRdata x).srtemp = s.srtemp := rfl
@[simp] theorem State.setRdata_thresh (s : State) (x : W32) : (s.setRdata x).thresh = s.thresh := rfl
@[simp] theorem State.setRdata_arg0 (s : State) (x : W32) : (s.setRdata x).arg0 = s.arg0 := rfl
@[simp] theorem State.setRdata_arg1 (s : State) (x : W32) : (s.setRdata x).arg1 = s.arg1 := rfl
@[simp] theorem State.setRdata_res0 (s : State) (x : W32) : (s.setRdata x).res0 = s.res0 := rfl
@[simp] theorem State.setRdata_res1 (s : State) (x : W32) : (s.setRdata x).res1 = s.res1 := rfl
@[simp] theorem State.setRdata_lastDraws (s : State) (x : W32) : (s.setRdata x).lastDraws = s.lastDraws := rfl
@[simp] theorem State.setRdata_err (s : State) (x : W32) : (s.setRdata x).err = s.err := rfl
@[simp] theorem State.setRdata_errCode (s : State) (x : W32) : (s.setRdata x).errCode = s.errCode := rfl
@[simp] theorem State.setRdata_busy (s : State) (x : W32) : (s.setRdata x).busy = s.busy := rfl
@[simp] theorem State.setRdata_pending (s : State) (x : W32) : (s.setRdata x).pending = s.pending := rfl
@[simp] theorem State.setRdata_rstN (s : State) (x : W32) : (s.setRdata x).rstN = s.rstN := rfl
@[simp] theorem State.setRdata_rdata (s : State) (x : W32) : (s.setRdata x).rdata = x := rfl
@[simp] theorem State.setRdata_inputs (s : State) (x : W32) : (s.setRdata x).inputs = s.inputs := rfl
@[simp] theorem State.setRdata_freeCount (s : State) (x : W32) : (s.setRdata x).freeCount = s.freeCount := rfl

-- setRstN
@[simp] theorem State.setRstN_units (s : State) (b : Bool) : (s.setRstN b).units = s.units := rfl
@[simp] theorem State.setRstN_seedBuf (s : State) (b : Bool) : (s.setRstN b).seedBuf = s.seedBuf := rfl
@[simp] theorem State.setRstN_seedLen (s : State) (b : Bool) : (s.setRstN b).seedLen = s.seedLen := rfl
@[simp] theorem State.setRstN_seedTrunc (s : State) (b : Bool) : (s.setRstN b).seedTrunc = s.seedTrunc := rfl
@[simp] theorem State.setRstN_srtemp (s : State) (b : Bool) : (s.setRstN b).srtemp = s.srtemp := rfl
@[simp] theorem State.setRstN_thresh (s : State) (b : Bool) : (s.setRstN b).thresh = s.thresh := rfl
@[simp] theorem State.setRstN_arg0 (s : State) (b : Bool) : (s.setRstN b).arg0 = s.arg0 := rfl
@[simp] theorem State.setRstN_arg1 (s : State) (b : Bool) : (s.setRstN b).arg1 = s.arg1 := rfl
@[simp] theorem State.setRstN_res0 (s : State) (b : Bool) : (s.setRstN b).res0 = s.res0 := rfl
@[simp] theorem State.setRstN_res1 (s : State) (b : Bool) : (s.setRstN b).res1 = s.res1 := rfl
@[simp] theorem State.setRstN_lastDraws (s : State) (b : Bool) : (s.setRstN b).lastDraws = s.lastDraws := rfl
@[simp] theorem State.setRstN_err (s : State) (b : Bool) : (s.setRstN b).err = s.err := rfl
@[simp] theorem State.setRstN_errCode (s : State) (b : Bool) : (s.setRstN b).errCode = s.errCode := rfl
@[simp] theorem State.setRstN_busy (s : State) (b : Bool) : (s.setRstN b).busy = s.busy := rfl
@[simp] theorem State.setRstN_pending (s : State) (b : Bool) : (s.setRstN b).pending = s.pending := rfl
@[simp] theorem State.setRstN_rstN (s : State) (b : Bool) : (s.setRstN b).rstN = b := rfl
@[simp] theorem State.setRstN_rdata (s : State) (b : Bool) : (s.setRstN b).rdata = s.rdata := rfl
@[simp] theorem State.setRstN_inputs (s : State) (b : Bool) : (s.setRstN b).inputs = s.inputs := rfl
@[simp] theorem State.setRstN_freeCount (s : State) (b : Bool) : (s.setRstN b).freeCount = s.freeCount := rfl

-- setInputs
@[simp] theorem State.setInputs_units (s : State) (es : List Event) : (s.setInputs es).units = s.units := rfl
@[simp] theorem State.setInputs_seedBuf (s : State) (es : List Event) : (s.setInputs es).seedBuf = s.seedBuf := rfl
@[simp] theorem State.setInputs_seedLen (s : State) (es : List Event) : (s.setInputs es).seedLen = s.seedLen := rfl
@[simp] theorem State.setInputs_seedTrunc (s : State) (es : List Event) : (s.setInputs es).seedTrunc = s.seedTrunc := rfl
@[simp] theorem State.setInputs_srtemp (s : State) (es : List Event) : (s.setInputs es).srtemp = s.srtemp := rfl
@[simp] theorem State.setInputs_thresh (s : State) (es : List Event) : (s.setInputs es).thresh = s.thresh := rfl
@[simp] theorem State.setInputs_arg0 (s : State) (es : List Event) : (s.setInputs es).arg0 = s.arg0 := rfl
@[simp] theorem State.setInputs_arg1 (s : State) (es : List Event) : (s.setInputs es).arg1 = s.arg1 := rfl
@[simp] theorem State.setInputs_res0 (s : State) (es : List Event) : (s.setInputs es).res0 = s.res0 := rfl
@[simp] theorem State.setInputs_res1 (s : State) (es : List Event) : (s.setInputs es).res1 = s.res1 := rfl
@[simp] theorem State.setInputs_lastDraws (s : State) (es : List Event) : (s.setInputs es).lastDraws = s.lastDraws := rfl
@[simp] theorem State.setInputs_err (s : State) (es : List Event) : (s.setInputs es).err = s.err := rfl
@[simp] theorem State.setInputs_errCode (s : State) (es : List Event) : (s.setInputs es).errCode = s.errCode := rfl
@[simp] theorem State.setInputs_busy (s : State) (es : List Event) : (s.setInputs es).busy = s.busy := rfl
@[simp] theorem State.setInputs_pending (s : State) (es : List Event) : (s.setInputs es).pending = s.pending := rfl
@[simp] theorem State.setInputs_rstN (s : State) (es : List Event) : (s.setInputs es).rstN = s.rstN := rfl
@[simp] theorem State.setInputs_rdata (s : State) (es : List Event) : (s.setInputs es).rdata = s.rdata := rfl
@[simp] theorem State.setInputs_inputs (s : State) (es : List Event) : (s.setInputs es).inputs = es := rfl
@[simp] theorem State.setInputs_freeCount (s : State) (es : List Event) : (s.setInputs es).freeCount = s.freeCount := rfl

-- clearSeed
@[simp] theorem State.clearSeed_units (s : State) : (s.clearSeed).units = s.units := rfl
@[simp] theorem State.clearSeed_seedBuf (s : State) : (s.clearSeed).seedBuf = s.seedBuf := rfl
@[simp] theorem State.clearSeed_seedLen (s : State) : (s.clearSeed).seedLen = 0 := rfl
@[simp] theorem State.clearSeed_seedTrunc (s : State) : (s.clearSeed).seedTrunc = false := rfl
@[simp] theorem State.clearSeed_srtemp (s : State) : (s.clearSeed).srtemp = s.srtemp := rfl
@[simp] theorem State.clearSeed_thresh (s : State) : (s.clearSeed).thresh = s.thresh := rfl
@[simp] theorem State.clearSeed_arg0 (s : State) : (s.clearSeed).arg0 = s.arg0 := rfl
@[simp] theorem State.clearSeed_arg1 (s : State) : (s.clearSeed).arg1 = s.arg1 := rfl
@[simp] theorem State.clearSeed_res0 (s : State) : (s.clearSeed).res0 = s.res0 := rfl
@[simp] theorem State.clearSeed_res1 (s : State) : (s.clearSeed).res1 = s.res1 := rfl
@[simp] theorem State.clearSeed_lastDraws (s : State) : (s.clearSeed).lastDraws = s.lastDraws := rfl
@[simp] theorem State.clearSeed_err (s : State) : (s.clearSeed).err = s.err := rfl
@[simp] theorem State.clearSeed_errCode (s : State) : (s.clearSeed).errCode = s.errCode := rfl
@[simp] theorem State.clearSeed_busy (s : State) : (s.clearSeed).busy = s.busy := rfl
@[simp] theorem State.clearSeed_pending (s : State) : (s.clearSeed).pending = s.pending := rfl
@[simp] theorem State.clearSeed_rstN (s : State) : (s.clearSeed).rstN = s.rstN := rfl
@[simp] theorem State.clearSeed_rdata (s : State) : (s.clearSeed).rdata = s.rdata := rfl
@[simp] theorem State.clearSeed_inputs (s : State) : (s.clearSeed).inputs = s.inputs := rfl
@[simp] theorem State.clearSeed_freeCount (s : State) : (s.clearSeed).freeCount = s.freeCount := rfl

-- raise
@[simp] theorem State.raise_units (s : State) (e : ErrorCause) : (s.raise e).units = s.units := rfl
@[simp] theorem State.raise_seedBuf (s : State) (e : ErrorCause) : (s.raise e).seedBuf = s.seedBuf := rfl
@[simp] theorem State.raise_seedLen (s : State) (e : ErrorCause) : (s.raise e).seedLen = s.seedLen := rfl
@[simp] theorem State.raise_seedTrunc (s : State) (e : ErrorCause) : (s.raise e).seedTrunc = s.seedTrunc := rfl
@[simp] theorem State.raise_srtemp (s : State) (e : ErrorCause) : (s.raise e).srtemp = s.srtemp := rfl
@[simp] theorem State.raise_thresh (s : State) (e : ErrorCause) : (s.raise e).thresh = s.thresh := rfl
@[simp] theorem State.raise_arg0 (s : State) (e : ErrorCause) : (s.raise e).arg0 = s.arg0 := rfl
@[simp] theorem State.raise_arg1 (s : State) (e : ErrorCause) : (s.raise e).arg1 = s.arg1 := rfl
@[simp] theorem State.raise_res0 (s : State) (e : ErrorCause) : (s.raise e).res0 = s.res0 := rfl
@[simp] theorem State.raise_res1 (s : State) (e : ErrorCause) : (s.raise e).res1 = s.res1 := rfl
@[simp] theorem State.raise_lastDraws (s : State) (e : ErrorCause) : (s.raise e).lastDraws = s.lastDraws := rfl
@[simp] theorem State.raise_err (s : State) (e : ErrorCause) : (s.raise e).err = true := rfl
@[simp] theorem State.raise_errCode (s : State) (e : ErrorCause) : (s.raise e).errCode = e.code := rfl
@[simp] theorem State.raise_busy (s : State) (e : ErrorCause) : (s.raise e).busy = s.busy := rfl
@[simp] theorem State.raise_pending (s : State) (e : ErrorCause) : (s.raise e).pending = s.pending := rfl
@[simp] theorem State.raise_rstN (s : State) (e : ErrorCause) : (s.raise e).rstN = s.rstN := rfl
@[simp] theorem State.raise_rdata (s : State) (e : ErrorCause) : (s.raise e).rdata = s.rdata := rfl
@[simp] theorem State.raise_inputs (s : State) (e : ErrorCause) : (s.raise e).inputs = s.inputs := rfl
@[simp] theorem State.raise_freeCount (s : State) (e : ErrorCause) : (s.raise e).freeCount = s.freeCount := rfl

-- clearError
@[simp] theorem State.clearError_units (s : State) : (s.clearError).units = s.units := rfl
@[simp] theorem State.clearError_seedBuf (s : State) : (s.clearError).seedBuf = s.seedBuf := rfl
@[simp] theorem State.clearError_seedLen (s : State) : (s.clearError).seedLen = s.seedLen := rfl
@[simp] theorem State.clearError_seedTrunc (s : State) : (s.clearError).seedTrunc = s.seedTrunc := rfl
@[simp] theorem State.clearError_srtemp (s : State) : (s.clearError).srtemp = s.srtemp := rfl
@[simp] theorem State.clearError_thresh (s : State) : (s.clearError).thresh = s.thresh := rfl
@[simp] theorem State.clearError_arg0 (s : State) : (s.clearError).arg0 = s.arg0 := rfl
@[simp] theorem State.clearError_arg1 (s : State) : (s.clearError).arg1 = s.arg1 := rfl
@[simp] theorem State.clearError_res0 (s : State) : (s.clearError).res0 = s.res0 := rfl
@[simp] theorem State.clearError_res1 (s : State) : (s.clearError).res1 = s.res1 := rfl
@[simp] theorem State.clearError_lastDraws (s : State) : (s.clearError).lastDraws = s.lastDraws := rfl
@[simp] theorem State.clearError_err (s : State) : (s.clearError).err = false := rfl
@[simp] theorem State.clearError_errCode (s : State) : (s.clearError).errCode = 0#4 := rfl
@[simp] theorem State.clearError_busy (s : State) : (s.clearError).busy = s.busy := rfl
@[simp] theorem State.clearError_pending (s : State) : (s.clearError).pending = s.pending := rfl
@[simp] theorem State.clearError_rstN (s : State) : (s.clearError).rstN = s.rstN := rfl
@[simp] theorem State.clearError_rdata (s : State) : (s.clearError).rdata = s.rdata := rfl
@[simp] theorem State.clearError_inputs (s : State) : (s.clearError).inputs = s.inputs := rfl
@[simp] theorem State.clearError_freeCount (s : State) : (s.clearError).freeCount = s.freeCount := rfl

-- latchCommand
@[simp] theorem State.latchCommand_units (s : State) (l : Latch) : (s.latchCommand l).units = s.units := rfl
@[simp] theorem State.latchCommand_seedBuf (s : State) (l : Latch) : (s.latchCommand l).seedBuf = s.seedBuf := rfl
@[simp] theorem State.latchCommand_seedLen (s : State) (l : Latch) : (s.latchCommand l).seedLen = s.seedLen := rfl
@[simp] theorem State.latchCommand_seedTrunc (s : State) (l : Latch) : (s.latchCommand l).seedTrunc = s.seedTrunc := rfl
@[simp] theorem State.latchCommand_srtemp (s : State) (l : Latch) : (s.latchCommand l).srtemp = s.srtemp := rfl
@[simp] theorem State.latchCommand_thresh (s : State) (l : Latch) : (s.latchCommand l).thresh = s.thresh := rfl
@[simp] theorem State.latchCommand_arg0 (s : State) (l : Latch) : (s.latchCommand l).arg0 = s.arg0 := rfl
@[simp] theorem State.latchCommand_arg1 (s : State) (l : Latch) : (s.latchCommand l).arg1 = s.arg1 := rfl
@[simp] theorem State.latchCommand_res0 (s : State) (l : Latch) : (s.latchCommand l).res0 = s.res0 := rfl
@[simp] theorem State.latchCommand_res1 (s : State) (l : Latch) : (s.latchCommand l).res1 = s.res1 := rfl
@[simp] theorem State.latchCommand_lastDraws (s : State) (l : Latch) : (s.latchCommand l).lastDraws = s.lastDraws := rfl
@[simp] theorem State.latchCommand_err (s : State) (l : Latch) : (s.latchCommand l).err = s.err := rfl
@[simp] theorem State.latchCommand_errCode (s : State) (l : Latch) : (s.latchCommand l).errCode = s.errCode := rfl
@[simp] theorem State.latchCommand_busy (s : State) (l : Latch) : (s.latchCommand l).busy = true := rfl
@[simp] theorem State.latchCommand_pending (s : State) (l : Latch) : (s.latchCommand l).pending = .command l := rfl
@[simp] theorem State.latchCommand_rstN (s : State) (l : Latch) : (s.latchCommand l).rstN = s.rstN := rfl
@[simp] theorem State.latchCommand_rdata (s : State) (l : Latch) : (s.latchCommand l).rdata = s.rdata := rfl
@[simp] theorem State.latchCommand_inputs (s : State) (l : Latch) : (s.latchCommand l).inputs = s.inputs := rfl
@[simp] theorem State.latchCommand_freeCount (s : State) (l : Latch) : (s.latchCommand l).freeCount = s.freeCount := rfl

-- complete
@[simp] theorem State.complete_units (s : State) : (s.complete).units = s.units := rfl
@[simp] theorem State.complete_seedBuf (s : State) : (s.complete).seedBuf = s.seedBuf := rfl
@[simp] theorem State.complete_seedLen (s : State) : (s.complete).seedLen = s.seedLen := rfl
@[simp] theorem State.complete_seedTrunc (s : State) : (s.complete).seedTrunc = s.seedTrunc := rfl
@[simp] theorem State.complete_srtemp (s : State) : (s.complete).srtemp = s.srtemp := rfl
@[simp] theorem State.complete_thresh (s : State) : (s.complete).thresh = s.thresh := rfl
@[simp] theorem State.complete_arg0 (s : State) : (s.complete).arg0 = s.arg0 := rfl
@[simp] theorem State.complete_arg1 (s : State) : (s.complete).arg1 = s.arg1 := rfl
@[simp] theorem State.complete_res0 (s : State) : (s.complete).res0 = s.res0 := rfl
@[simp] theorem State.complete_res1 (s : State) : (s.complete).res1 = s.res1 := rfl
@[simp] theorem State.complete_lastDraws (s : State) : (s.complete).lastDraws = s.lastDraws := rfl
@[simp] theorem State.complete_err (s : State) : (s.complete).err = s.err := rfl
@[simp] theorem State.complete_errCode (s : State) : (s.complete).errCode = s.errCode := rfl
@[simp] theorem State.complete_busy (s : State) : (s.complete).busy = false := rfl
@[simp] theorem State.complete_pending (s : State) : (s.complete).pending = .empty := rfl
@[simp] theorem State.complete_rstN (s : State) : (s.complete).rstN = s.rstN := rfl
@[simp] theorem State.complete_rdata (s : State) : (s.complete).rdata = s.rdata := rfl
@[simp] theorem State.complete_inputs (s : State) : (s.complete).inputs = s.inputs := rfl
@[simp] theorem State.complete_freeCount (s : State) : (s.complete).freeCount = s.freeCount := rfl

-- resetState
@[simp] theorem resetState_units (s : State) : (resetState s).units = s.units := by cases s; rfl
@[simp] theorem resetState_seedBuf (s : State) : (resetState s).seedBuf = unspecifiedSeedBuf s.freeCount := rfl
@[simp] theorem resetState_seedLen (s : State) : (resetState s).seedLen = 0 := rfl
@[simp] theorem resetState_seedTrunc (s : State) : (resetState s).seedTrunc = false := rfl
@[simp] theorem resetState_srtemp (s : State) : (resetState s).srtemp = true := rfl
@[simp] theorem resetState_thresh (s : State) : (resetState s).thresh = 0x00008000#32 := rfl
@[simp] theorem resetState_arg0 (s : State) : (resetState s).arg0 = 0#32 := rfl
@[simp] theorem resetState_arg1 (s : State) : (resetState s).arg1 = 0#32 := rfl
@[simp] theorem resetState_res0 (s : State) : (resetState s).res0 = 0#32 := rfl
@[simp] theorem resetState_res1 (s : State) : (resetState s).res1 = 0#32 := rfl
@[simp] theorem resetState_lastDraws (s : State) : (resetState s).lastDraws = 0#21 := rfl
@[simp] theorem resetState_err (s : State) : (resetState s).err = false := rfl
@[simp] theorem resetState_errCode (s : State) : (resetState s).errCode = 0#4 := rfl
@[simp] theorem resetState_busy (s : State) : (resetState s).busy = false := rfl
@[simp] theorem resetState_pending (s : State) : (resetState s).pending = .empty := rfl
@[simp] theorem resetState_rstN (s : State) : (resetState s).rstN = s.rstN := by cases s; rfl
@[simp] theorem resetState_rdata (s : State) : (resetState s).rdata = s.rdata := by cases s; rfl
@[simp] theorem resetState_inputs (s : State) : (resetState s).inputs = s.inputs := by cases s; rfl
@[simp] theorem resetState_freeCount (s : State) : (resetState s).freeCount = s.freeCount + 1 := rfl

-- hardReset
@[simp] theorem hardReset_units (s : State) : (hardReset s).units = unspecifiedUnits s.freeCount := by cases s; rfl
@[simp] theorem hardReset_seedBuf (s : State) : (hardReset s).seedBuf = unspecifiedSeedBuf s.freeCount := rfl
@[simp] theorem hardReset_seedLen (s : State) : (hardReset s).seedLen = 0 := rfl
@[simp] theorem hardReset_seedTrunc (s : State) : (hardReset s).seedTrunc = false := rfl
@[simp] theorem hardReset_srtemp (s : State) : (hardReset s).srtemp = true := rfl
@[simp] theorem hardReset_thresh (s : State) : (hardReset s).thresh = 0x00008000#32 := rfl
@[simp] theorem hardReset_arg0 (s : State) : (hardReset s).arg0 = 0#32 := rfl
@[simp] theorem hardReset_arg1 (s : State) : (hardReset s).arg1 = 0#32 := rfl
@[simp] theorem hardReset_res0 (s : State) : (hardReset s).res0 = 0#32 := rfl
@[simp] theorem hardReset_res1 (s : State) : (hardReset s).res1 = 0#32 := rfl
@[simp] theorem hardReset_lastDraws (s : State) : (hardReset s).lastDraws = 0#21 := rfl
@[simp] theorem hardReset_err (s : State) : (hardReset s).err = false := rfl
@[simp] theorem hardReset_errCode (s : State) : (hardReset s).errCode = 0#4 := rfl
@[simp] theorem hardReset_busy (s : State) : (hardReset s).busy = true := rfl
@[simp] theorem hardReset_pending (s : State) : (hardReset s).pending = .reseed := rfl
@[simp] theorem hardReset_rstN (s : State) : (hardReset s).rstN = true := by cases s; rfl
@[simp] theorem hardReset_rdata (s : State) : (hardReset s).rdata = s.rdata := by cases s; rfl
@[simp] theorem hardReset_inputs (s : State) : (hardReset s).inputs = s.inputs := by cases s; rfl
@[simp] theorem hardReset_freeCount (s : State) : (hardReset s).freeCount = s.freeCount + 1 := rfl

end Sys2Proof.Machine
end

