-- ==== Sys2Proof/Laws/Stores.lean ====
section
/-! SUPPORT. Reading and writing one word of a store, and the sequential loops over a store. -/

namespace Sys2Proof.Machine

variable {w n : Nat}

theorem readWord_eq_getElem (a : Vector (BitVec w) n) {k : Nat} (h : k < n) : readWord a k = a[k] := by
  simp [readWord, h]

theorem readWord_of_le (a : Vector (BitVec w) n) {k : Nat} (h : n ≤ k) : readWord a k = 0#w := by
  simp [readWord, Nat.not_lt.mpr h]

theorem writeWord_of_le (a : Vector (BitVec w) n) {k : Nat} (x : BitVec w) (h : n ≤ k) : writeWord a k x = a := by
  simp [writeWord, Nat.not_lt.mpr h]

/-- A read after a write to the same word gives the value written. -/
@[simp] theorem readWord_writeWord_same (a : Vector (BitVec w) n) {k : Nat} (x : BitVec w) (h : k < n) :
    readWord (writeWord a k x) k = x := by
  simp [readWord, writeWord, h]

/-- A write leaves every other word alone. -/
@[simp] theorem readWord_writeWord_ne (a : Vector (BitVec w) n) {j k : Nat} (x : BitVec w) (h : k ≠ j) :
    readWord (writeWord a k x) j = readWord a j := by
  unfold readWord writeWord
  by_cases hj : j < n <;> by_cases hk : k < n <;> simp [hj, hk, h]

theorem readWord_writeWord (a : Vector (BitVec w) n) (j k : Nat) (x : BitVec w) :
    readWord (writeWord a k x) j = if k = j ∧ k < n then x else readWord a j := by
  by_cases h : k = j
  · subst h
    by_cases hk : k < n
    · simp [hk]
    · rw [writeWord_of_le a x (by omega)]; simp [hk]
  · simp [h]

@[simp] theorem readWord_replicate (x : BitVec w) {k : Nat} (h : k < n) : readWord (Vector.replicate n x) k = x := by
  simp [readWord, h]

@[simp] theorem readWord_replicate_zero (k : Nat) : readWord (Vector.replicate n (0#w)) k = 0#w := by
  by_cases h : k < n
  · simp [h]
  · exact readWord_of_le _ (by omega)

/-- Two stores with the same words are the same store. -/
theorem store_ext {a b : Vector (BitVec w) n} (h : ∀ k < n, readWord a k = readWord b k) : a = b := by
  ext k hk
  have := h k hk
  rw [readWord_eq_getElem a hk, readWord_eq_getElem b hk] at this
  rw [this]

theorem readWord_eq_getD (a : Vector (BitVec w) n) (k : Nat) : readWord a k = a.toList.getD k 0#w := by
  by_cases h : k < n
  · simp [readWord, h, List.getD_eq_getElem?_getD]
  · rw [readWord_of_le a (by omega)]; simp [List.getD_eq_getElem?_getD, Nat.not_lt.mp h]

section Loops
variable {α : Type}

@[simp] theorem loopFrom_zero (body : Nat → α → α) (i : Nat) (a : α) : loopFrom body i 0 a = a := rfl

/-- The last iteration of a loop taken off. -/
theorem loopFrom_succ_last (body : Nat → α → α) (i n : Nat) (a : α) :
    loopFrom body i (n + 1) a = body (i + n) (loopFrom body i n a) := by
  induction n generalizing i a with
  | zero => rfl
  | succ n ih => rw [loopFrom, ih (i + 1), loopFrom]; congr 1; omega

theorem loopFrom_add (body : Nat → α → α) (i m n : Nat) (a : α) :
    loopFrom body i (m + n) a = loopFrom body (i + m) n (loopFrom body i m a) := by
  induction n with
  | zero => rfl
  | succ n ih => rw [← Nat.add_assoc, loopFrom_succ_last, loopFrom_succ_last, ih, Nat.add_assoc]

/-- A loop keeps what every iteration keeps. -/
theorem loopFrom_induct (body : Nat → α → α) (P : Nat → α → Prop) (i n : Nat) (a : α) (h0 : P i a)
    (hs : ∀ k b, i ≤ k → k < i + n → P k b → P (k + 1) (body k b)) : P (i + n) (loopFrom body i n a) := by
  induction n with
  | zero => exact h0
  | succ n ih =>
    rw [loopFrom_succ_last, ← Nat.add_assoc]
    exact hs (i + n) _ (by omega) (by omega) (ih fun k b h1 h2 => hs k b h1 (by omega))

@[simp] theorem repeatTimes_zero (body : α → α) (a : α) : repeatTimes body 0 a = a := rfl

theorem repeatTimes_succ_last (body : α → α) (n : Nat) (a : α) :
    repeatTimes body (n + 1) a = body (repeatTimes body n a) := by
  induction n generalizing a with
  | zero => rfl
  | succ n ih => rw [repeatTimes, ih]; rfl

theorem repeatTimes_add (body : α → α) (m n : Nat) (a : α) :
    repeatTimes body (m + n) a = repeatTimes body n (repeatTimes body m a) := by
  induction n with
  | zero => rfl
  | succ n ih => rw [← Nat.add_assoc, repeatTimes_succ_last, repeatTimes_succ_last, ih]

end Loops

/-- One iteration of an in-place pass in which word i is computed from its left neighbour, already rewritten, and its
own old value. -/
def passAt (g : Nat → BitVec w → BitVec w → BitVec w) (i : Nat) (a : Vector (BitVec w) n) : Vector (BitVec w) n :=
  writeWord a i (g i (readWord a (i - 1)) (readWord a i))

/-- What such a pass over the words i .. i + m - 1 leaves: the words outside as they were, each word inside by the
recurrence. -/
theorem pass_spec (g : Nat → BitVec w → BitVec w → BitVec w) (i m : Nat) (a : Vector (BitVec w) n) (hi : 1 ≤ i)
    (hm : i + m ≤ n) :
    (∀ k, k < i ∨ i + m ≤ k → readWord (loopFrom (passAt g) i m a) k = readWord a k) ∧
    (∀ k, i ≤ k → k < i + m →
      readWord (loopFrom (passAt g) i m a) k = g k (readWord (loopFrom (passAt g) i m a) (k - 1)) (readWord a k)) := by
  induction m with
  | zero => exact ⟨fun k _ => rfl, fun k h1 h2 => by omega⟩
  | succ m ih =>
    obtain ⟨hout, hin⟩ := ih (by omega)
    rw [loopFrom_succ_last]
    generalize hb : loopFrom (passAt g) i m a = b at hout hin
    have hself : readWord (passAt g (i + m) b) (i + m) = g (i + m) (readWord b (i + m - 1)) (readWord b (i + m)) := by
      simp [passAt, show i + m < n by omega]
    have hother : ∀ k, k ≠ i + m → readWord (passAt g (i + m) b) k = readWord b k := fun k hk => by
      simp [passAt, Ne.symm hk]
    refine ⟨fun k hk => ?_, fun k h1 h2 => ?_⟩
    · rw [hother k (by omega), hout k (by omega)]
    · by_cases hk : k = i + m
      · subst hk
        rw [hself, hother _ (by omega), hout (i + m) (by omega)]
      · rw [hother k hk, hother _ (by omega), hin k h1 (by omega)]

end Sys2Proof.Machine
end

