-- ==== Sys2Proof/Laws/Generators.lean ====
section
/-! SUPPORT. What a raw draw does: the words an SR step writes, the twist word by word, and which unit a draw touches. -/

namespace Sys2Proof.Machine

/-- The cursor of the SR unit moves one position down (10_state.md R23). -/
@[simp] theorem srStep_idx (u : SrUnit) : (srStep u).2.idx = Fin.ofNat 16 ((u.idx.val + 15) % 16) := rfl

/-- The store after an SR step: two writes (41_generators.md R131). -/
theorem srStep_v (u : SrUnit) :
    ∃ z3, (srStep u).2.v = writeWord (writeWord u.v u.idx.val z3) ((u.idx.val + 15) % 16) (srStep u).1 := ⟨_, rfl⟩

@[simp] theorem srDraw_snd (t : Bool) (u : SrUnit) : (srDraw t u).2 = (srStep u).2 := rfl

@[simp] theorem srDraw_fst (t : Bool) (u : SrUnit) :
    (srDraw t u).1 = if t then temperSR (srStep u).1 else (srStep u).1 := rfl

/-- The tempering of 0 is 0. -/
@[simp] theorem temperSR_zero : temperSR 0#32 = 0#32 := by decide

@[simp] theorem tfDraw_fst (u : TfUnit) :
    (tfDraw u).1 = temperTF (readWord (tfRefill u).mt (tfRefill u).idx.val) := rfl

@[simp] theorem tfDraw_mt (u : TfUnit) : (tfDraw u).2.mt = (tfRefill u).mt := rfl

@[simp] theorem tfDraw_idx (u : TfUnit) : (tfDraw u).2.idx = Fin.ofNat 313 ((tfRefill u).idx.val + 1) := rfl

/-- Below the end of the array a draw does not twist. -/
theorem tfRefill_of_lt {u : TfUnit} (h : u.idx.val < 312) : tfRefill u = u := by simp [tfRefill, Nat.not_le.mpr h]

/-- At the end of the array a draw twists and starts at word 0. -/
theorem tfRefill_of_end {u : TfUnit} (h : u.idx.val = 312) : tfRefill u = { mt := twist u.mt, idx := 0 } := by
  simp [tfRefill, h]

/-- After the refill the cursor points into the array. -/
theorem tfRefill_idx_lt (u : TfUnit) : (tfRefill u).idx.val < 312 := by
  unfold tfRefill; split <;> simp_all

theorem draw_sr (t : Bool) (u : Units) : draw .sr t u = (.sr (srDraw t u.sr).1, { u with sr := (srDraw t u.sr).2 }) := rfl

theorem draw_tf (t : Bool) (u : Units) : draw .tf t u = (.tf (tfDraw u.tf).1, { u with tf := (tfDraw u.tf).2 }) := rfl

/-- One word of the twist from the word, its right neighbour and the word at the middle offset (41_generators.md R135). -/
def twistWord (a b m : W64) : W64 :=
  let y := (a &&& 0xFFFFFFFF80000000#64) ||| (b &&& 0x000000007FFFFFFF#64)
  m ^^^ (y >>> 1) ^^^ (if y.getLsbD 0 then 0xB5026F5AA96619E9#64 else 0#64)

theorem twistAt_eq (i : Nat) (a : Vector W64 312) : twistAt i a =
    writeWord a i (twistWord (readWord a i) (readWord a ((i + 1) % 312)) (readWord a ((i + 156) % 312))) := rfl

theorem twist_eq (a : Vector W64 312) : twist a = loopFrom twistAt 0 312 a := by unfold twist; rfl

/-- After the first n iterations of the twist, the words from n on are the old ones. -/
theorem twistPrefix_old (a : Vector W64 312) (n k : Nat) (h : n ≤ k) :
    readWord (loopFrom twistAt 0 n a) k = readWord a k := by
  induction n with
  | zero => rfl
  | succ n ih =>
    rw [loopFrom_succ_last, twistAt_eq, readWord_writeWord_ne _ _ (by omega), ih (by omega)]

/-- A word already rewritten is not written again. -/
theorem twistPrefix_new (a : Vector W64 312) (n m k : Nat) (h : k < n) (hm : n ≤ m) :
    readWord (loopFrom twistAt 0 m a) k = readWord (loopFrom twistAt 0 n a) k := by
  induction m, hm using Nat.le_induction with
  | base => rfl
  | succ m hm ih => rw [loopFrom_succ_last, twistAt_eq, readWord_writeWord_ne _ _ (by omega), ih]

/-- What iteration k of the twist reads at word j: the new word if the pass has been there, else the old one. -/
theorem twistPrefix_read (a : Vector W64 312) (k j : Nat) (hk : k ≤ 312) :
    readWord (loopFrom twistAt 0 k a) j = if j < k then readWord (twist a) j else readWord a j := by
  split
  · rw [twist_eq]; exact (twistPrefix_new a k 312 j ‹_› hk).symm
  · exact twistPrefix_old a k j (by omega)

/-- Word k of the twisted store by the words iteration k reads. -/
theorem twist_word (a : Vector W64 312) (k : Nat) (hk : k < 312) :
    readWord (twist a) k = twistWord (readWord a k)
      (readWord (loopFrom twistAt 0 k a) ((k + 1) % 312)) (readWord (loopFrom twistAt 0 k a) ((k + 156) % 312)) := by
  have h := twistPrefix_new a (k + 1) 312 k (by omega) (by omega)
  rw [twist_eq, h, loopFrom_succ_last _ 0 k, twistAt_eq, Nat.zero_add, readWord_writeWord_same _ _ hk,
    twistPrefix_old a k k (by omega)]

end Sys2Proof.Machine
end

