-- ==== Sys2Proof/Laws/Sampler.lean ====
section
/-! SUPPORT. The rejection loop said once: it stops at the first accepted sample word, or at the cap; and what a
sampling command leaves unchanged. -/

namespace Sys2Proof.Machine

@[simp] theorem unitsAfter_zero (f : Fam) (t : Bool) (u : Units) : unitsAfter f t 0 u = u := rfl

theorem unitsAfter_succ (f : Fam) (t : Bool) (n : Nat) (u : Units) :
    unitsAfter f t (n + 1) u = unitsAfter f t n (sampleWord f t u).2 := rfl

@[simp] theorem sampleAt_zero (f : Fam) (t : Bool) (u : Units) : sampleAt f t 0 u = (sampleWord f t u).1 := rfl

theorem sampleAt_succ (f : Fam) (t : Bool) (n : Nat) (u : Units) :
    sampleAt f t (n + 1) u = sampleAt f t n (sampleWord f t u).2 := rfl

/-- The loop ends with a sample exactly at the first accepted word: k words rejected, then word k accepted. -/
theorem sampleLoop_accepts (f : Fam) (t : Bool) (acc : W32 → Option Nat) (left n : Nat) (u : Units) (k v : Nat)
    (hk : k < left) (hrej : ∀ j < k, acc (sampleAt f t j u) = none) (hacc : acc (sampleAt f t k u) = some v) :
    sampleLoop f t acc left n u = (unitsAfter f t (k + 1) u, some (v, n + k + 1)) := by
  induction k generalizing left n u with
  | zero =>
    obtain ⟨l, rfl⟩ : ∃ l, left = l + 1 := ⟨left - 1, by omega⟩
    simp only [sampleAt_zero] at hacc
    simp [sampleLoop, hacc, unitsAfter_succ]
  | succ k ih =>
    obtain ⟨l, rfl⟩ : ∃ l, left = l + 1 := ⟨left - 1, by omega⟩
    have h0 : acc (sampleWord f t u).1 = none := hrej 0 (by omega)
    have := ih l (n + 1) (sampleWord f t u).2 (by omega) (fun j hj => hrej (j + 1) (by omega)) hacc
    simp only [sampleLoop, h0, this, unitsAfter_succ]
    congr 3; omega

/-- The loop gives up exactly when the words it may draw are all rejected. -/
theorem sampleLoop_gives_up (f : Fam) (t : Bool) (acc : W32 → Option Nat) (left n : Nat) (u : Units)
    (hrej : ∀ j < left, acc (sampleAt f t j u) = none) :
    sampleLoop f t acc left n u = (unitsAfter f t left u, none) := by
  induction left generalizing n u with
  | zero => rfl
  | succ l ih =>
    have h0 : acc (sampleWord f t u).1 = none := hrej 0 (by omega)
    simp only [sampleLoop, h0, ih (n + 1) (sampleWord f t u).2 (fun j hj => hrej (j + 1) (by omega)), unitsAfter_succ]

/-- Everything the loop can do: a first accepted word within the cap, or every word rejected. -/
theorem sampleLoop_cases (f : Fam) (t : Bool) (acc : W32 → Option Nat) (left n : Nat) (u : Units) :
    (∃ k v, k < left ∧ (∀ j < k, acc (sampleAt f t j u) = none) ∧ acc (sampleAt f t k u) = some v ∧
      sampleLoop f t acc left n u = (unitsAfter f t (k + 1) u, some (v, n + k + 1))) ∨
    ((∀ j < left, acc (sampleAt f t j u) = none) ∧ sampleLoop f t acc left n u = (unitsAfter f t left u, none)) := by
  by_cases h : ∃ k, k < left ∧ (acc (sampleAt f t k u)).isSome
  · left
    obtain ⟨hlt, hsome⟩ := Nat.find_spec h
    obtain ⟨v, hv⟩ := Option.isSome_iff_exists.mp hsome
    have hrej : ∀ j < Nat.find h, acc (sampleAt f t j u) = none := fun j hj => by
      have := Nat.find_min h hj
      rw [not_and] at this
      exact Option.not_isSome_iff_eq_none.mp (this (by omega))
    exact ⟨_, v, hlt, hrej, hv, sampleLoop_accepts f t acc left n u _ v hlt hrej hv⟩
  · right
    have hrej : ∀ j < left, acc (sampleAt f t j u) = none := fun j hj =>
      Option.not_isSome_iff_eq_none.mp fun hs => h ⟨j, hj, hs⟩
    exact ⟨hrej, sampleLoop_gives_up f t acc left n u hrej⟩

/-- The two things a sampling command can end in (42_sampler.md R167, R170, R171). -/
theorem runSample_cases (cap : Nat) (f : Fam) (b : Nat) (place : Nat → W32 × W32) (s : State) :
    (∃ u v n, runSample cap f b place s = ((s.setUnits u).setResults (place v).1 (place v).2).setLastDraws n) ∨
    (∃ u, runSample cap f b place s = ((s.setUnits u).setLastDraws cap).raise .rejectCapExceeded) := by
  unfold runSample
  split
  · exact .inl ⟨_, _, _, rfl⟩
  · exact .inr ⟨_, rfl⟩

end Sys2Proof.Machine
end

