-- ==== Sys2Proof/Laws/Window.lean ====
section
/-! SUPPORT. What a register write can do, and what a bus access that answers has done. -/

namespace Sys2Proof.Machine

/-- Everything a register write can do to the state (20_memory.md R63, 43_control.md R190). -/
theorem regWrite_cases (r : Reg) (x : W32) (s : State) :
    regWrite r x s = s ∨ regWrite r x s = s.setSrtemp (x.getLsbD 0) ∨ regWrite r x s = s.clearError ∨
    regWrite r x s = s.setThresh (legalThresh x) ∨ regWrite r x s = s.setArg0 x ∨ regWrite r x s = s.setArg1 x ∨
    (s.busy = true ∧ regWrite r x s = s.raise .overrun) ∨
    (s.busy = false ∧ regWrite r x s = s.latchCommand (s.snapshot x)) := by
  cases r <;> simp only [regWrite, issueCommand, true_or, or_true]
  · split <;> simp
  · cases h : s.busy <;> simp

/-- What a bus access that answers has done: rst_n is 1, the access is supported, and it was a RegWrite or a RegRead. -/
theorem busAccess_next {a : Access} {s t : State} (h : busAccess a s = .next t) :
    s.rstN = true ∧ inWindow a.addr = true ∧ ∃ r, accessReg a = some r ∧
      ((a.write = true ∧ t = regWrite r a.wdata s) ∨ (a.write = false ∧ t = s.setRdata (regRead r s))) := by
  unfold busAccess at h
  split at h
  · cases h
  split at h
  · cases h
  split at h
  · cases h
  · rename_i h1 h2 _ r hr
    refine ⟨by simpa using h1, by simpa using h2, r, hr, ?_⟩
    cases hw : a.write <;> simp [hw] at h <;> simp [h]

/-- The legalised THRESH is a legal value (10_state.md R37). -/
theorem legalThresh_le (x : W32) : (legalThresh x).toNat ≤ 0x10000 := by
  unfold legalThresh Config.threshMax
  split
  · simpa [BitVec.le_def] using ‹_›
  · simp

/-- An access at offset `off` of the window is inside it. -/
theorem inWindow_base_add {off : Nat} (h : off < 64) : inWindow (Config.base + off) = true := by
  simp [inWindow, Config.windowBytes]; omega

end Sys2Proof.Machine
end

