-- ==== Sys2Proof/Laws/Engine.lean ====
section
/-! SUPPORT. Every command answers a next state; what a command leaves alone; what an engine step and a step can do. -/

namespace Sys2Proof.Machine

/-- Every command answers a next state: the block has no trap (60_exceptions.md R211). -/
theorem exec_answers (i : Instr) (s : State) : ∃ t, exec i s = .next t := by
  cases i <;> simp only [exec, execNop, execSeedClear, execSeedPush, execSeedApply, execNextWord, execSoftReset,
    execNextBounded, execNextBoundedPair] <;> first | exact ⟨_, rfl⟩ | (split <;> exact ⟨_, rfl⟩)

/-- The port, the pin and the events to come are no command's to change. -/
theorem exec_port {i : Instr} {s t : State} (h : exec i s = .next t) :
    t.rstN = s.rstN ∧ t.rdata = s.rdata ∧ t.inputs = s.inputs := by
  have hrun : ∀ cap f b place, (runSample cap f b place s).rstN = s.rstN ∧
      (runSample cap f b place s).rdata = s.rdata ∧ (runSample cap f b place s).inputs = s.inputs := by
    intro cap f b place
    rcases runSample_cases cap f b place s with ⟨u, v, n, e⟩ | ⟨u, e⟩ <;> rw [e] <;> simp
  cases i <;> simp only [exec, execNop, execSeedClear, execSeedPush, execSeedApply, execNextWord, execSoftReset,
    execNextBounded, execNextBoundedPair, State.pushSeed, reseed] at h
  case seedPush => injection h with h; subst h; split <;> simp [State.setLastDraws]
  case nextBounded f => split at h <;> injection h with h <;> subst h <;> first | exact hrun .. | simp
  case nextBoundedPair f => split at h <;> injection h with h <;> subst h <;> first | exact hrun .. | simp
  all_goals injection h with h; subst h; simp

/-- A latched word always runs to a next state. -/
theorem runWord_answers (c : W32) (s : State) : ∃ t, runWord c s = .next t := by
  unfold runWord
  split
  · exact exec_answers _ _
  · exact ⟨_, rfl⟩

/-- Everything an engine step can do (43_control.md R191). -/
theorem engineStep_cases {s t : State} (h : engineStep s = .next t) :
    (s.pending = .empty ∧ t = s) ∨ (s.pending = .reseed ∧ t = (reseed s).complete) ∨
    ∃ l, s.pending = .command l ∧
      ((∃ e, decode l.word = .error e ∧ t = ((s.setLastDraws 0).raise .illegalCmd).complete) ∨
       ∃ i t', decode l.word = .ok i ∧ exec i (s.setLastDraws 0) = .next t' ∧ t = t'.complete) := by
  unfold engineStep at h
  split at h
  · injection h with h; exact .inl ⟨‹_›, h.symm⟩
  · injection h with h; exact .inr (.inl ⟨‹_›, h.symm⟩)
  · rename_i l hl
    refine .inr (.inr ⟨l, hl, ?_⟩)
    unfold runWord at h
    split at h
    · rename_i i hi
      obtain ⟨t', ht⟩ := exec_answers i (s.setLastDraws 0)
      rw [ht] at h
      injection h with h
      exact .inr ⟨i, t', hi, ht, h.symm⟩
    · rename_i e he
      injection h with h
      exact .inl ⟨e, he, h.symm⟩

/-- A CMD write that an idle block accepts, and then the engine step: the command runs on the snapshot of the write
(43_control.md R190, R191). -/
theorem engineStep_issued {c : W32} {i : Instr} {s : State} (hb : s.busy = false) (hd : decode c = .ok i) :
    engineStep (regWrite .cmd c s) = completeOutcome (exec i ((s.latchCommand (s.snapshot c)).setLastDraws 0)) := by
  simp [regWrite, issueCommand, hb, engineStep, State.latchCommand, State.snapshot, runWord, hd]

/-- Everything a step can do: the engine's turn when no event is left, else the next event. -/
theorem step_cases {s t : State} (h : step s = .next t) :
    (s.inputs = [] ∧ engineTurn s = .next t) ∨
    ∃ e rest, s.inputs = e :: rest ∧ runEvent e (s.setInputs rest) = .next t := by
  unfold step stepOnce at h
  split at h
  · exact .inl ⟨‹_›, h⟩
  · exact .inr ⟨_, _, ‹_›, h⟩

end Sys2Proof.Machine
end

