-- ==== Sys2Proof/Laws/Seeding.lean ====
section
/-! SUPPORT. The seeding FSMs phase by phase: the TF mixing loops as in-place passes over MT. -/

namespace Sys2Proof.Machine

/-- INIT's word (40_seeding.md R117). -/
def initWord (k : Nat) (p _m : W64) : W64 := 6364136223846793005#64 * fold62 p + BitVec.ofNat 64 k

/-- MIX1's word at index i, which uses key word j (40_seeding.md R117). -/
def mix1Word (key : List W64) (j : Nat) (p m : W64) : W64 :=
  (m ^^^ (fold62 p * 3935559000370003845#64)) + keyWord key j + BitVec.ofNat 64 j

/-- MIX1's word on its first pass over MT[1..311]: word i uses key word (i - 1) mod L. -/
def mix1Pass (key : List W64) (i : Nat) (p m : W64) : W64 := mix1Word key ((i - 1) % key.length) p m

/-- MIX2's word (40_seeding.md R117). -/
def mix2Word (i : Nat) (p m : W64) : W64 := (m ^^^ (fold62 p * 2862933555777941757#64)) - BitVec.ofNat 64 i

theorem tfInitAt_eq (k : Nat) (a : Vector W64 312) : tfInitAt k a = passAt initWord k a := rfl

theorem tfInit_eq : tfInit = loopFrom (passAt initWord) 1 311 (writeWord (Vector.replicate 312 0#64) 0 19650218#64) := by
  unfold tfInit; rfl

/-- The wrap of the mixing loops: MT[0] <- MT[311]. -/
def wrapStore (a : Vector W64 312) : Vector W64 312 := writeWord a 0 (readWord a 311)

/-- j after one more MIX1 iteration. -/
theorem next_key_index (t : Nat) {n : Nat} (h : 0 < n) :
    (if n ≤ t % n + 1 then 0 else t % n + 1) = (t + 1) % n := by
  have hlt := Nat.mod_lt t h
  split
  · have : t % n = n - 1 := by omega
    rw [Nat.add_mod, this]
    by_cases h1 : n = 1
    · subst h1; simp
    · rw [Nat.mod_eq_of_lt (show 1 < n by omega), show n - 1 + 1 = n by omega, Nat.mod_self]
  · rw [Nat.add_mod]
    by_cases h1 : n = 1
    · subst h1; omega
    · rw [Nat.mod_eq_of_lt (show 1 < n by omega), Nat.mod_eq_of_lt (show t % n + 1 < n by omega)]

/-- The first 310 iterations of MIX1, none of which wraps. -/
theorem mix1_iterations (key : List W64) (hk : 0 < key.length) (a : Vector W64 312) (t : Nat) (ht : t ≤ 310) :
    repeatTimes (tfMix1 key) t { mt := a, i := 1, j := 0 } =
      { mt := loopFrom (passAt (mix1Pass key)) 1 t a, i := t + 1, j := t % key.length } := by
  induction t with
  | zero => simp
  | succ t ih =>
    rw [repeatTimes_succ_last, ih (by omega), loopFrom_succ_last]
    simp only [tfMix1, TfMix.wrap, show ¬ 312 ≤ t + 1 + 1 by omega, if_false]
    have hj := next_key_index t hk
    have hp : passAt (mix1Pass key) (1 + t) (loopFrom (passAt (mix1Pass key)) 1 t a) =
        writeWord (loopFrom (passAt (mix1Pass key)) 1 t a) (t + 1)
          (mix1Word key (t % key.length) (readWord (loopFrom (passAt (mix1Pass key)) 1 t a) (t + 1 - 1))
            (readWord (loopFrom (passAt (mix1Pass key)) 1 t a) (t + 1))) := by
      rw [Nat.add_comm 1 t]; rfl
    rw [hp]
    split at hj <;> rename_i h
    · simp only [h, if_true, ← hj]; rfl
    · simp only [h, if_false, ← hj]; rfl

/-- MIX1 for a key of at most 312 words: a pass over MT[1..311], the wrap, and one more word at index 1. -/
def mix1Store (key : List W64) (a : Vector W64 312) : Vector W64 312 :=
  let b := wrapStore (loopFrom (passAt (mix1Pass key)) 1 311 a)
  writeWord b 1 (mix1Word key (311 % key.length) (readWord b 0) (readWord b 1))

theorem mix1_phase (key : List W64) (hk : 0 < key.length) (a : Vector W64 312) :
    repeatTimes (tfMix1 key) 312 { mt := a, i := 1, j := 0 } =
      { mt := mix1Store key a, i := 2, j := 312 % key.length } := by
  rw [repeatTimes_succ_last _ 311, repeatTimes_succ_last _ 310, mix1_iterations key hk a 310 (by omega)]
  have h1 : tfMix1 key { mt := loopFrom (passAt (mix1Pass key)) 1 310 a, i := 310 + 1, j := 310 % key.length } =
      { mt := wrapStore (loopFrom (passAt (mix1Pass key)) 1 311 a), i := 1, j := 311 % key.length } := by
    rw [loopFrom_succ_last _ 1 310]
    have hj := next_key_index 310 hk
    simp only [tfMix1, TfMix.wrap, show (312 : Nat) ≤ 310 + 1 + 1 by omega, if_true]
    split at hj <;> rename_i h
    · simp only [h, if_true, ← hj]; rfl
    · simp only [h, if_false, ← hj]; rfl
  rw [h1]
  have hj := next_key_index 311 hk
  simp only [tfMix1, TfMix.wrap, show ¬ (312 : Nat) ≤ 1 + 1 by omega, if_false]
  split at hj <;> rename_i h
  · simp only [h, if_true, ← hj]; rfl
  · simp only [h, if_false, ← hj]; rfl

/-- The first 309 iterations of MIX2, none of which wraps. -/
theorem mix2_iterations (a : Vector W64 312) (j t : Nat) (ht : t ≤ 309) :
    repeatTimes tfMix2 t { mt := a, i := 2, j := j } =
      { mt := loopFrom (passAt mix2Word) 2 t a, i := t + 2, j := j } := by
  induction t with
  | zero => simp
  | succ t ih =>
    rw [repeatTimes_succ_last, ih (by omega), loopFrom_succ_last, Nat.add_comm 2 t]
    simp only [tfMix2, TfMix.wrap, show ¬ 312 ≤ t + 2 + 1 by omega, if_false]
    rfl

/-- MIX2: a pass over MT[2..311], the wrap, and the last word at index 1. -/
def mix2Store (a : Vector W64 312) : Vector W64 312 :=
  passAt mix2Word 1 (wrapStore (loopFrom (passAt mix2Word) 2 310 a))

theorem mix2_phase (a : Vector W64 312) (j : Nat) :
    repeatTimes tfMix2 311 { mt := a, i := 2, j := j } = { mt := mix2Store a, i := 2, j := j } := by
  rw [repeatTimes_succ_last _ 310, repeatTimes_succ_last _ 309, mix2_iterations a j 309 (by omega)]
  have h1 : tfMix2 { mt := loopFrom (passAt mix2Word) 2 309 a, i := 309 + 2, j := j } =
      { mt := wrapStore (loopFrom (passAt mix2Word) 2 310 a), i := 1, j := j } := by
    rw [loopFrom_succ_last _ 2 309]
    simp only [tfMix2, TfMix.wrap, show (312 : Nat) ≤ 309 + 2 + 1 by omega, if_true]
    rfl
  rw [h1]
  simp only [tfMix2, TfMix.wrap, show ¬ (312 : Nat) ≤ 1 + 1 by omega, if_false]
  rfl

/-- Seeding puts the TF cursor at the end of the array, whatever the key (10_state.md R25). -/
@[simp] theorem seedTF_idx (key : List W64) : (seedTF key).idx = 312 := by unfold seedTF; rfl

/-- SeedTF phase by phase, for every key of 1 to 312 words (40_seeding.md R117). -/
theorem seedTF_phases (key : List W64) (h0 : 0 < key.length) (h1 : key.length ≤ 312) :
    seedTF key = { mt := writeWord (mix2Store (mix1Store key tfInit)) 0 0x8000000000000000#64, idx := 312 } := by
  unfold seedTF
  simp only [Nat.max_eq_left h1, mix1_phase key h0, mix2_phase]

-- RESEED replaces both units and nothing else (43_control.md R191).
@[simp] theorem reseed_units (s : State) : (reseed s).units = { sr := seedSR Config.fallbackKey, tf := seedTF Config.fallbackKey } := rfl
@[simp] theorem reseed_seedBuf (s : State) : (reseed s).seedBuf = s.seedBuf := rfl
@[simp] theorem reseed_seedLen (s : State) : (reseed s).seedLen = s.seedLen := rfl
@[simp] theorem reseed_seedTrunc (s : State) : (reseed s).seedTrunc = s.seedTrunc := rfl
@[simp] theorem reseed_srtemp (s : State) : (reseed s).srtemp = s.srtemp := rfl
@[simp] theorem reseed_thresh (s : State) : (reseed s).thresh = s.thresh := rfl
@[simp] theorem reseed_arg0 (s : State) : (reseed s).arg0 = s.arg0 := rfl
@[simp] theorem reseed_arg1 (s : State) : (reseed s).arg1 = s.arg1 := rfl
@[simp] theorem reseed_res0 (s : State) : (reseed s).res0 = s.res0 := rfl
@[simp] theorem reseed_res1 (s : State) : (reseed s).res1 = s.res1 := rfl
@[simp] theorem reseed_lastDraws (s : State) : (reseed s).lastDraws = s.lastDraws := rfl
@[simp] theorem reseed_err (s : State) : (reseed s).err = s.err := rfl
@[simp] theorem reseed_errCode (s : State) : (reseed s).errCode = s.errCode := rfl
@[simp] theorem reseed_busy (s : State) : (reseed s).busy = s.busy := rfl
@[simp] theorem reseed_pending (s : State) : (reseed s).pending = s.pending := rfl
@[simp] theorem reseed_rstN (s : State) : (reseed s).rstN = s.rstN := rfl
@[simp] theorem reseed_rdata (s : State) : (reseed s).rdata = s.rdata := rfl
@[simp] theorem reseed_inputs (s : State) : (reseed s).inputs = s.inputs := rfl
@[simp] theorem reseed_freeCount (s : State) : (reseed s).freeCount = s.freeCount := rfl

end Sys2Proof.Machine
end

