-- ==== Sys2Proof/Laws/Fast.lean ====
section
/-! SUPPORT. List forms of the TF loops, equal to the model's loops and quick for the kernel to evaluate on a concrete
key: proofs about concrete TF words rewrite with them first. -/

namespace Sys2Proof.Machine

/-- The words an in-place pass leaves, left to right, from the left neighbour `p` on. -/
def passList (g : Nat → W64 → W64 → W64) : Nat → W64 → List W64 → List W64
  | _, _, [] => []
  | i, p, m :: ms => g i p m :: passList g (i + 1) (g i p m) ms

/-- An in-place pass from word i to the end of the list. -/
def listPass (g : Nat → W64 → W64 → W64) (i : Nat) (l : List W64) : List W64 :=
  l.take i ++ passList g i (l.getD (i - 1) 0#64) (l.drop i)

@[simp] theorem toList_writeWord (a : Vector W64 312) (k : Nat) (x : W64) :
    (writeWord a k x).toList = a.toList.set k x := by
  unfold writeWord
  split
  · simp [Vector.toList_set]
  · rw [List.set_eq_of_length_le]; simp; omega

theorem toList_pass (g : Nat → W64 → W64 → W64) (i m : Nat) (a : Vector W64 312) (hi : 1 ≤ i) (hm : i + m = 312) :
    (loopFrom (passAt g) i m a).toList = listPass g i a.toList := by
  induction m generalizing i a with
  | zero =>
    have : a.toList.length = 312 := by simp
    simp [listPass, passList, show i = 312 by omega, List.drop_of_length_le (by omega : a.toList.length ≤ 312),
      List.take_of_length_le (by omega : a.toList.length ≤ 312)]
  | succ m ih =>
    have hlen : a.toList.length = 312 := by simp
    have hil : i < a.toList.length := by omega
    rw [loopFrom, ih (i + 1) _ (by omega) (by omega)]
    unfold listPass
    rw [List.drop_eq_getElem_cons hil, passList]
    simp only [passAt, toList_writeWord, Nat.add_sub_cancel]
    have hw : readWord a (i - 1) = a.toList.getD (i - 1) 0#64 := readWord_eq_getD a _
    have hr : readWord a i = a.toList[i] := by
      rw [readWord_eq_getD, List.getD_eq_getElem _ _ hil]
    rw [hw, hr]
    have h1 : (a.toList.set i (g i (a.toList.getD (i - 1) 0#64) a.toList[i])).getD i 0#64 =
        g i (a.toList.getD (i - 1) 0#64) a.toList[i] := by
      rw [List.getD_eq_getElem?_getD, List.getElem?_set_self hil]; rfl
    rw [h1, List.drop_set_of_lt (by omega), List.take_succ_eq_append_getElem (by simpa using hil),
      List.take_set_of_le (Nat.le_refl i), List.getElem_set_self]
    simp

/-- INIT on lists. -/
def initList : List W64 := listPass initWord 1 (19650218#64 :: List.replicate 311 0#64)

/-- The wrap of the mixing loops on lists. -/
def wrapList (l : List W64) : List W64 := l.set 0 (l.getD 311 0#64)

/-- SeedTF on lists, phase by phase. -/
def seedList (key : List W64) : List W64 :=
  let b := wrapList (listPass (mix1Pass key) 1 initList)
  let b' := b.set 1 (mix1Word key (311 % key.length) (b.getD 0 0#64) (b.getD 1 0#64))
  let c := wrapList (listPass mix2Word 2 b')
  (c.set 1 (mix2Word 1 (c.getD 0 0#64) (c.getD 1 0#64))).set 0 0x8000000000000000#64

theorem toList_tfInit : tfInit.toList = initList := by
  rw [tfInit_eq, toList_pass _ _ _ _ (by omega) (by omega), toList_writeWord, Vector.toList_replicate]
  rfl

/-- SeedTF's store is the list form's, for every key of 1 to 312 words. -/
theorem toList_seedTF (key : List W64) (h0 : 0 < key.length) (h1 : key.length ≤ 312) :
    (seedTF key).mt.toList = seedList key := by
  rw [seedTF_phases key h0 h1]
  simp only [mix1Store, mix2Store, wrapStore, passAt, toList_writeWord, readWord_eq_getD, toList_tfInit,
    toList_pass _ 1 311 _ (by omega) (by omega), toList_pass _ 2 310 _ (by omega) (by omega), seedList, wrapList,
    Nat.sub_self]

/-- Three lists combined word by word by the twist. -/
def twistList3 : List W64 → List W64 → List W64 → List W64
  | a :: as, b :: bs, m :: ms => twistWord a b m :: twistList3 as bs ms
  | _, _, _ => []

theorem length_twistList3 (as bs ms : List W64) :
    (twistList3 as bs ms).length = min as.length (min bs.length ms.length) := by
  induction as generalizing bs ms with
  | nil => simp [twistList3]
  | cons a as ih =>
    cases bs with
    | nil => simp [twistList3]
    | cons b bs => cases ms with
      | nil => simp [twistList3]
      | cons m ms => simp [twistList3, ih]

theorem getD_twistList3 (as bs ms : List W64) (k : Nat) (ha : k < as.length) (hb : k < bs.length) (hm : k < ms.length) :
    (twistList3 as bs ms).getD k 0#64 = twistWord (as.getD k 0#64) (bs.getD k 0#64) (ms.getD k 0#64) := by
  induction as generalizing bs ms k with
  | nil => simp at ha
  | cons a as ih =>
    cases bs with
    | nil => simp at hb
    | cons b bs => cases ms with
      | nil => simp at hm
      | cons m ms => cases k with
        | zero => simp [twistList3]
        | succ k =>
          have := ih bs ms k (by simpa using ha) (by simpa using hb) (by simpa using hm)
          simpa [twistList3] using this

/-- The first 156 new words of the twist, from old words only. -/
def twistHead (l : List W64) : List W64 := twistList3 l (l.drop 1) (l.drop 156)

/-- The next 155 new words, whose middle words are new. -/
def twistMiddle (l : List W64) : List W64 := twistList3 (l.drop 156) (l.drop 157) (twistHead l)

/-- The twist on lists. -/
def twistList (l : List W64) : List W64 :=
  twistHead l ++ (twistMiddle l ++
    [twistWord (l.getD 311 0#64) ((twistHead l).getD 0 0#64) ((twistHead l).getD 155 0#64)])

theorem getD_drop (l : List W64) (i k : Nat) : (l.drop i).getD k 0#64 = l.getD (i + k) 0#64 := by
  simp [List.getD_eq_getElem?_getD]

/-- The model's twist is the list form's. -/
theorem toList_twist (a : Vector W64 312) : (twist a).toList = twistList a.toList := by
  have hlen : a.toList.length = 312 := by simp
  have hh : (twistHead a.toList).length = 156 := by simp [twistHead, length_twistList3]
  have hm : (twistMiddle a.toList).length = 155 := by simp [twistMiddle, length_twistList3, hh]
  have hhead : ∀ k < 156, readWord (twist a) k = (twistHead a.toList).getD k 0#64 := fun k hk => by
    rw [twist_word a k (by omega), twistPrefix_read _ _ _ (by omega), twistPrefix_read _ _ _ (by omega), twistHead,
      getD_twistList3 _ _ _ k (by omega) (by simp; omega) (by simp; omega), getD_drop, getD_drop,
      if_neg (by omega), if_neg (by omega), Nat.mod_eq_of_lt (by omega), Nat.mod_eq_of_lt (by omega),
      readWord_eq_getD, readWord_eq_getD, readWord_eq_getD, Nat.add_comm 1 k, Nat.add_comm 156 k]
  have hmid : ∀ k < 155, readWord (twist a) (156 + k) = (twistMiddle a.toList).getD k 0#64 := fun k hk => by
    rw [twist_word a _ (by omega), twistPrefix_read _ _ _ (by omega), twistPrefix_read _ _ _ (by omega), twistMiddle,
      getD_twistList3 _ _ _ k (by simp; omega) (by simp; omega) (by omega), getD_drop, getD_drop,
      if_neg (by omega), if_pos (by omega), Nat.mod_eq_of_lt (show 156 + k + 1 < 312 by omega),
      show (156 + k + 156) % 312 = k by omega, hhead k (by omega), readWord_eq_getD, readWord_eq_getD,
      show 157 + k = 156 + k + 1 by omega]
  have hlast : readWord (twist a) 311 =
      twistWord (a.toList.getD 311 0#64) ((twistHead a.toList).getD 0 0#64) ((twistHead a.toList).getD 155 0#64) := by
    rw [twist_word a _ (by omega), twistPrefix_read _ _ _ (by omega), twistPrefix_read _ _ _ (by omega),
      if_pos (by omega), if_pos (by omega), show (311 + 1) % 312 = 0 by omega, show (311 + 156) % 312 = 155 by omega,
      hhead 0 (by omega), hhead 155 (by omega), readWord_eq_getD]
  apply List.ext_getElem
  · simp [twistList, hh, hm]
  · intro k h1 h2
    have hk : k < 312 := by simpa only [Vector.length_toList] using h1
    rw [← List.getD_eq_getElem _ 0#64 h1, ← List.getD_eq_getElem _ 0#64 h2, ← readWord_eq_getD]
    unfold twistList
    by_cases c1 : k < 156
    · rw [List.getD_append _ _ _ _ (by omega), hhead k c1]
    · obtain ⟨j, rfl⟩ : ∃ j, k = 156 + j := ⟨k - 156, by omega⟩
      rw [List.getD_append_right _ _ _ _ (by omega), hh, Nat.add_sub_cancel_left]
      by_cases c2 : j < 155
      · rw [List.getD_append _ _ _ _ (by omega), hmid j c2]
      · obtain rfl : j = 155 := by omega
        rw [List.getD_append_right _ _ _ _ (by omega), hm, hlast]
        rfl

/-- Word k of the store SeedTF leaves, as a list lookup. -/
theorem readWord_seedTF (key : List W64) (h0 : 0 < key.length) (h1 : key.length ≤ 312) (k : Nat) :
    readWord (seedTF key).mt k = (seedList key).getD k 0#64 := by rw [readWord_eq_getD, toList_seedTF key h0 h1]

/-- Word k of the twisted store, as a list lookup. -/
theorem readWord_twist_seedTF (key : List W64) (h0 : 0 < key.length) (h1 : key.length ≤ 312) (k : Nat) :
    readWord (twist (seedTF key).mt) k = (twistList (seedList key)).getD k 0#64 := by
  rw [readWord_eq_getD, toList_twist, toList_seedTF key h0 h1]

end Sys2Proof.Machine
end

