-- ==== Sys2Proof/Laws/PerInstr.lean ====
section
/-! SUPPORT. Statements about every command as syntax, one lemma per constructor. -/

namespace Sys2Proof.Laws.EncodeLegal

/-- A command's word is legal (30_encoding.md R92). -/
def Statement (i : Instr) : Prop := i.wf = true ∧ legalWord (encode i) = true

theorem nop : Statement .nop := by unfold Statement; decide
theorem seedClear : Statement .seedClear := by unfold Statement; decide
theorem seedPush : Statement .seedPush := by unfold Statement; decide
theorem seedApply (f : Fam) : Statement (.seedApply f) := by unfold Statement; cases f <;> decide
theorem nextWord (f : Fam) : Statement (.nextWord f) := by unfold Statement; cases f <;> decide
theorem nextBounded (f : Fam) : Statement (.nextBounded f) := by unfold Statement; cases f <;> decide
theorem nextBoundedPair (f : Fam) : Statement (.nextBoundedPair f) := by unfold Statement; cases f <;> decide
theorem softReset : Statement .softReset := by unfold Statement; decide

end Sys2Proof.Laws.EncodeLegal
end

