-- ==== Sys2Proof/Tests/Slice0.lean ====
section
/-! SUPPORT. The model's own tests. Expected values are those of spec/95_test_vectors.md or are written out by hand from
the encoding of 30_encoding.md R91; the `witness_` theorems show that the hypotheses of a statement can be met. -/

namespace Sys2Proof.Tests

open Sys2Proof Sys2Proof.Machine

/-- A command word latched with operands, THRESH at its reset value. -/
def latch (c a0 a1 : W32) : Latch := { word := c, arg0 := a0, arg1 := a1, thresh := 0x8000#32, srtemp := true }

/-- The state right after reset with that command pending in place of the RESEED. -/
def pend (l : Latch) : State := { State.reset with pending := .command l }

/-- The same with the SR unit as the RESEED leaves it. -/
def pendSr (l : Latch) : State := { pend l with units := { State.reset.units with sr := seedSR [0#64] } }

/-- The block idle, with no error and nothing pending. -/
def idle : State := { State.reset with pending := .empty, busy := false }

/-- A state with events still to happen. -/
def withEvents (s : State) (es : List Event) : State := { s with inputs := es }

/-- One field of the state an outcome leads to; the default on a stop. -/
def look {α : Type} (d : α) (f : State → α) : Host.Outcome State Fault Refusal → α
  | .next s => f s
  | .fault _ => d
  | .refused _ => d

-- Well-formedness: each check refuses a word of its own, by name.

theorem test_reserved_bits_refused :
    reservedBitsZero 0x00000200#32 = false ∧ decode 0x00000200#32 = .error .reservedBits ∧
    decode 0x80000005#32 = .error .reservedBits := by decide
theorem test_reserved_opcode_refused :
    opcodeDefined 0x00000007#32 = false ∧ decode 0x00000007#32 = .error .reservedOpcode ∧
    decode 0x000000FF#32 = .error .reservedOpcode ∧ decode 0x0000000E#32 = .error .reservedOpcode ∧
    decode 0x00000010#32 = .error .reservedOpcode := by decide
theorem test_family_on_familyless_refused :
    familyAllowed 0x00000101#32 = false ∧ decode 0x00000101#32 = .error .familyOnFamilyless ∧
    decode 0x0000010F#32 = .error .familyOnFamilyless := by decide
theorem test_short_bytes_refused : decodeBytes [0x04#8, 0x01#8, 0x00#8] = .error .notAWord := by decide
theorem test_legal_words_pass : legalWord 0x00000106#32 = true ∧ legalWord 0x0000000F#32 = true := by decide

-- Decoding, words written out bit by bit: 23 bits RSV, FAM, eight bits OPC (30_encoding.md R91, R93).

theorem test_decode_nop : decode 0b00000000000000000000000000000000#32 = .ok .nop := by decide
theorem test_decode_seedClear : decode 0b00000000000000000000000000000001#32 = .ok .seedClear := by decide
theorem test_decode_seedPush : decode 0b00000000000000000000000000000010#32 = .ok .seedPush := by decide
theorem test_decode_seedApply : decode 0b00000000000000000000000000000011#32 = .ok (.seedApply .sr) ∧
    decode 0b00000000000000000000000100000011#32 = .ok (.seedApply .tf) := by decide
theorem test_decode_nextWord : decode 0b00000000000000000000000000000100#32 = .ok (.nextWord .sr) ∧
    decode 0b00000000000000000000000100000100#32 = .ok (.nextWord .tf) := by decide
theorem test_decode_nextBounded : decode 0b00000000000000000000000000000101#32 = .ok (.nextBounded .sr) ∧
    decode 0b00000000000000000000000100000101#32 = .ok (.nextBounded .tf) := by decide
theorem test_decode_nextBoundedPair : decode 0b00000000000000000000000000000110#32 = .ok (.nextBoundedPair .sr) ∧
    decode 0b00000000000000000000000100000110#32 = .ok (.nextBoundedPair .tf) := by decide
theorem test_decode_softReset : decode 0b00000000000000000000000000001111#32 = .ok .softReset := by decide
theorem test_decode_table_words :
    [0x0, 0x1, 0x2, 0x3, 0x104, 0x5, 0x106, 0xF, 0x107].map (decodeTableWord 32) =
      [some .nop, some .seedClear, some .seedPush, some (.seedApply .sr), some (.nextWord .tf), some (.nextBounded .sr),
        some (.nextBoundedPair .tf), some .softReset, none] := by decide

-- Control and the register window.

/-- T-CT-1. -/
theorem test_nop : look 9 (·.lastDraws) (exec .nop { idle with lastDraws := 7#21 }) = 0#21 := by decide +kernel
/-- T-CT-3: CTRL, THRESH and STATUS after SOFT_RESET. -/
theorem test_softReset :
    look (0, 0, 0) (fun t => (t.ctrlWord, t.thresh, t.statusWord))
      (engineStep { pend (latch 0xF#32 0#32 0#32) with srtemp := false, thresh := 0x100#32, err := true, errCode := 2#4 })
      = (1#32, 0x8000#32, 0#32) := by decide +kernel
/-- T-RS-2, T-RS-3: STATUS just after reset, and after a CMD write that comes before the RESEED step. -/
theorem test_overrun_before_reseed :
    regRead .status State.reset = 0x1#32 ∧ regRead .status (regWrite .cmd 4#32 State.reset) = 0x53#32 := by
  decide +kernel
/-- T-CT-2. -/
theorem test_thresh_legalised :
    regRead .thresh (regWrite .thresh 0x20000#32 idle) = 0x10000#32 ∧ regRead .thresh (regWrite .thresh 0#32 idle) = 0#32 := by
  decide +kernel
/-- T-CT-6, T-CT-7. -/
theorem test_status_clear :
    regRead .status (regWrite .status 0x2#32 { idle with err := true, errCode := 2#4 }) = 0#32 ∧
    regRead .status (regWrite .status 0xF1#32 { idle with err := true, errCode := 2#4 }) = 0x22#32 := by decide +kernel

-- Seeding.

/-- 40_seeding.md R110's example. -/
theorem test_seedClear :
    look (9, true) (fun t => (t.seedLen.val, t.seedTrunc)) (exec .seedClear { idle with seedLen := 5, seedTrunc := true }) =
      (0, false) := by decide +kernel
/-- R111's example: the pair ARG0 = 0x12345, ARG1 = 0; here with ARG1 = 7 to show the halves' places. -/
theorem test_seedPush :
    look (0, 0) (fun t => (readWord t.seedBuf 0, t.seedLen.val)) (exec .seedPush (pend (latch 2#32 0x12345#32 7#32))) =
      (0x0000000700012345#64, 1) := by decide +kernel
/-- T-SD-3: the push after the 312th is dropped and STATUS reads 0x100 once it has completed. -/
theorem test_seedPush_full :
    look (0, 0) (fun t => (t.seedLen.val, t.statusWord))
      (engineStep { pend (latch 2#32 1#32 0#32) with seedLen := 312 }) = (312, 0x100#32) := by decide +kernel
/-- T-SR-6: the arithmetic shift of the SR fill. -/
theorem test_seedApply_sr :
    (seedSR [0x80000000#64]).v.toList.take 3 = [0x80000000#32, 0xA7F0ED37#32, 0x1E7EFA4F#32] := by decide +kernel
/-- T-TF-1: MT[1] and MT[311] for the reference key. -/
theorem test_seedApply_tf :
    readWord (seedTF [0x12345#64, 0x23456#64, 0x34567#64, 0x45678#64]).mt 1 = 0xA53DA00C269CD27C#64 ∧
    readWord (seedTF [0x12345#64, 0x23456#64, 0x34567#64, 0x45678#64]).mt 311 = 0x81A384FB290849CD#64 := by
  rw [readWord_seedTF _ (by decide) (by decide), readWord_seedTF _ (by decide) (by decide)]
  decide +kernel

-- Generators.

/-- T-SR-1: the first SR word after reset and the RESEED step. -/
theorem test_nextWord_sr :
    look (0, 9) (fun t => (t.res0, t.res1)) (exec (.nextWord .sr) (pendSr (latch 4#32 0#32 0#32))) = (0xFEE5E74E#32, 0#32) := by
  decide +kernel
/-- T-TF-1: the first TF word of the reference key is the published check value. -/
theorem test_nextWord_tf : (tfDraw (seedTF [0x12345#64, 0x23456#64, 0x34567#64, 0x45678#64])).1 = 0x64D79B552A559D7F#64 := by
  rw [tfDraw_fst, tfRefill_of_end (by simp)]
  show temperTF (readWord (twist _) 0) = _
  rw [readWord_twist_seedTF _ (by decide) (by decide)]
  decide +kernel
/-- T-SR-4: one SR step of the one-bit seed. -/
theorem test_srStep_one_bit :
    srDraw true (seedSR (1#64 :: List.replicate 15 0#64)) = (0x08041020#32,
      { v := #v[0x00010001#32, 0, 0, 0, 0, 0, 0, 0, 0, 0, 0, 0, 0, 0, 0, 0x00040020#32], idx := 15 }) := by decide +kernel
/-- T-SR-10. -/
theorem test_temperSR :
    [0#32, 1#32, 0x80000000#32, 0xFFFFFFFF#32, 0x12345678#32].map temperSR =
      [0#32, 0x8001#32, 0x80000000#32, 0x8B9768FF#32, 0x131A4278#32] := by decide +kernel
/-- T-TF-3. -/
theorem test_temperTF :
    [0#64, 1#64, 0x8000000000000000#64, 0xFFFFFFFFFFFFFFFF#64, 0x0123456789ABCDEF#64].map temperTF =
      [0#64, 0x0040002000020801#64, 0x8000000400100000#64, 0x7BFEEEEFEFA1D577#64, 0x2254DA7001198660#64] := by
  decide +kernel

-- The sampler, on sample words.

/-- T-BD-4, T-BD-6, T-BD-7, T-BD-9 (first word), T-BD-38: power of two, and the lanes of the SMALL path. -/
theorem test_small_words :
    candidate (choosePath 0x40000000 0x8000) 0x40000000 0xDEADBEEF#32 = some 0x1EADBEEF ∧
    candidate (choosePath 3 0x8000) 3 0x00030003#32 = none ∧ candidate (choosePath 3 0x8000) 3 0x00010003#32 = some 1 ∧
    candidate (choosePath 5 0x8000) 5 0x00070006#32 = none ∧
    candidate (choosePath 0x5555 0x8000) 0x5555 0xD555D555#32 = none ∧
    candidate (choosePath 0x5555 0x8000) 0x5555 0x55560000#32 = some 0 := by decide +kernel
/-- T-BD-15, T-BD-16, T-BD-33, T-BD-34, T-BD-18: the FULL path and the strict threshold. -/
theorem test_full_words :
    candidate (choosePath 1000000 0x8000) 1000000 0xFFFC0000#32 = none ∧
    candidate (choosePath 1000000 0x8000) 1000000 0x12345678#32 = some 419896 ∧
    candidate (choosePath 0x7FFFFFFF 0x8000) 0x7FFFFFFF 0xFFFFFFFD#32 = some 0x7FFFFFFE ∧
    candidate (choosePath 100 100) 100 0x00000063#32 = some 0x63 ∧ candidate (choosePath 99 100) 99 0x00000063#32 = some 0 ∧
    candidate (choosePath 3 0) 3 0xFFFFFFFF#32 = none := by decide +kernel
/-- T-BD-23. -/
theorem test_nextBounded :
    look (9, 9) (fun t => (t.res0, t.lastDraws)) (exec (.nextBounded .sr) (pendSr (latch 5#32 10#32 0#32))) = (5#32, 1#21) := by
  decide +kernel
/-- T-ER-2: ARG0 = 0x80000000. -/
theorem test_nextBounded_negative :
    look 0 (·.statusWord) (engineStep (pend (latch 5#32 0x80000000#32 0#32))) = 0x22#32 := by decide +kernel
/-- T-PR-2: the third SR word after reset, the pair 100, 200. -/
theorem test_nextBoundedPair :
    look (9, 9) (fun t => (t.res0, t.res1)) (exec (.nextBoundedPair .sr)
      { pend (latch 6#32 100#32 200#32) with units := { State.reset.units with sr := srAfter 2 (seedSR [0#64]) } }) =
      (5#32, 154#32) := by decide +kernel
/-- T-ER-4 (the product 2^31) and T-PR-3's bound (the product 2^31 - 1 is accepted). -/
theorem test_nextBoundedPair_product :
    look 0 (·.statusWord) (engineStep (pend (latch 6#32 0x10000#32 0x8000#32))) = 0x32#32 ∧
    look 9 (·.statusWord) (engineStep (pend (latch 6#32 0x7FFFFFFF#32 1#32))) = 0#32 := by decide +kernel
/-- T-BD-39's case at cap 1: the only word allowed is rejected. Program P3's trace gives the lanes 6, 5 of FEE5E74E. -/
theorem test_rejectCap :
    (bounded 1 .sr true 5 0x8000 (pendSr (latch 5#32 5#32 0#32)).units).2 = none := by decide +kernel

-- Witnesses: for each statement with hypotheses, concrete values that meet all of them together, clause by clause.

theorem witness_DecodeAndEncodeAgree : decode 0x00000104#32 = .ok (.nextWord .tf) := by decide

/-- Both ends of every range of R99, over pending commands. -/
theorem witness_IllegalWordsCompleteWithIllegalCmd :
    (∀ c ∈ [0x200#32, 0xFFFFFFFF#32, 0x07#32, 0x0E#32, 0x10#32, 0xFF#32, 0x100#32, 0x102#32, 0x10F#32], IllegalWord c) ∧
    (∀ c ∈ [0x06#32, 0x0F#32, 0x103#32, 0x106#32], ¬ IllegalWord c) ∧
    (pend (latch 0x107#32 0#32 0#32)).pending = .command (latch 0x107#32 0#32 0#32) ∧ IllegalWord (latch 0x107#32 0#32 0#32).word := by
  unfold IllegalWord; exact ⟨by simp, by simp, rfl, by simp [latch]⟩

theorem witness_HardwareResetThenReseed :
    (withEvents idle [.reset, .engineTurn]).inputs = .reset :: .engineTurn :: [] := rfl

theorem witness_SoftResetRestoresTheResetState :
    (0x10F#32 : W32).extractLsb' 0 8 = 0x0F#8 ∧ (0x10F#32 : W32) ≠ 0x0000000F#32 := by decide

/-- The first and the last of the sixteen registers, and STATUS. -/
theorem witness_ReadsAnswerTheRegisterOnly :
    ∀ p ∈ [(0x00, 0x524E4707#32), (0x10, State.reset.statusWord), (0x3C, 0#32)],
      (withEvents State.reset [.access (readAccess p.1)]).rstN = true ∧
      (withEvents State.reset [.access (readAccess p.1)]).inputs = .access (readAccess p.1) :: [] ∧
      p ∈ [(0x00, 0x524E4707#32), (0x04, 0x00100138#32), (0x08, 0x009C0138#32),
        (0x0C, if State.reset.srtemp then 1#32 else 0#32), (0x10, State.reset.statusWord), (0x14, State.reset.thresh),
        (0x18, 0#32), (0x1C, State.reset.arg0), (0x20, State.reset.arg1), (0x24, State.reset.res0),
        (0x28, State.reset.res1), (0x2C, BitVec.ofNat 32 State.reset.seedLen.val),
        (0x30, BitVec.ofNat 32 State.reset.lastDraws.toNat), (0x34, 0x00100000#32), (0x38, 0#32), (0x3C, 0#32)] := by
  intro p hp; exact ⟨rfl, rfl, by revert p; decide +kernel⟩

/-- One write per clause, THRESH at both sides of its limit and CMD with BUSY 0 and 1. -/
theorem witness_WritesTakeTheirEffectByOffset :
    (∀ w ∈ [(0x0C, 1#32), (0x10, 2#32), (0x10, 0xF1#32), (0x14, 0x10000#32), (0x14, 0x10001#32), (0x18, 4#32), (0x1C, 5#32),
        (0x20, 6#32), (0x00, 7#32), (0x3C, 8#32)], ∀ s ∈ [idle, State.reset],
      (withEvents s [.access (writeAccess w.1 w.2)]).rstN = true ∧
      (withEvents s [.access (writeAccess w.1 w.2)]).inputs = .access (writeAccess w.1 w.2) :: []) ∧
    (2#32 : W32).getLsbD 1 = true ∧ (0xF1#32 : W32).getLsbD 1 = false ∧ (0x10000#32 : W32).toNat ≤ 0x10000 ∧
    0x10000 < (0x10001#32 : W32).toNat ∧ idle.busy = false ∧ State.reset.busy = true := by
  refine ⟨fun w _ s hs => ?_, by decide⟩
  refine ⟨?_, rfl⟩
  rcases List.mem_pair.mp hs with h | h <;> rw [h] <;> rfl

/-- A 16-bit access at the first byte, a partial byte enable at the last register, a misaligned 32-bit access at the last
byte. -/
theorem witness_UnsupportedAccessesAreRefused :
    ∀ a ∈ [{ wordAccess 0 false 0#32 with size := .half }, { wordAccess 0x3C true 0#32 with byteEnable := 0xE#4 },
        wordAccess 0x3F false 0#32],
      (withEvents idle [.access a]).rstN = true ∧ (withEvents idle [.access a]).inputs = .access a :: [] ∧
      Config.base ≤ a.addr ∧ a.addr < Config.base + 64 ∧
      (a.size ≠ .word ∨ a.byteEnable ≠ 0xF#4 ∨ a.addr % 4 ≠ 0) := by
  intro a ha
  simp only [List.mem_cons, List.not_mem_nil, or_false] at ha
  rcases ha with rfl | rfl | rfl <;> simp [withEvents, idle, State.reset, wordAccess, Config.base]
  omega

/-- The pin low with an access, an engine turn, a fall, a rise and the reset event next; the fall and the reset event
with the pin high too. -/
theorem witness_ResetPinHoldsTheBlock :
    (∀ es ∈ [[.access (readAccess 0)], [.engineTurn], [.rstLow], [.rstHigh], [.reset]],
      (withEvents { State.reset with rstN := false } es).rstN = false ∧
      (withEvents { State.reset with rstN := false } es).inputs = es) ∧
    (∀ es ∈ [[.rstLow], [.reset]], (withEvents idle es).rstN = true ∧ (withEvents idle es).inputs = es) :=
  ⟨fun _ _ => ⟨rfl, rfl⟩, fun _ _ => ⟨rfl, rfl⟩⟩

/-- The first byte after the window. BASE has no value in Lean, so that bytes below it exist cannot be shown. -/
theorem witness_AddressesOutsideTheWindowFault :
    (withEvents idle [.access (wordAccess 64 false 0#32)]).rstN = true ∧
    (withEvents idle [.access (wordAccess 64 false 0#32)]).inputs = .access (wordAccess 64 false 0#32) :: [] ∧
    Config.base + 64 ≤ (wordAccess 64 false 0#32).addr := ⟨rfl, rfl, Nat.le_refl _⟩

theorem witness_StatusWriteClearsTheErrorOnly :
    (0x2#32 : W32).getLsbD 1 = true ∧ (0xF1#32 : W32).getLsbD 1 = false ∧
    (pend (latch 0x7#32 0#32 0#32)).pending = .command (latch 0x7#32 0#32 0#32) ∧ IllegalWord (latch 0x7#32 0#32 0#32).word := by
  unfold IllegalWord; decide

theorem witness_ThresholdWritesAreLegalised :
    (0x10000#32 : W32).toNat ≤ 0x10000 ∧ 0x10000 < (0x10001#32 : W32).toNat := by decide

/-- A read and a write access that answer a next state. -/
theorem witness_WindowCannotReachTheStores_HostAccessesLeaveResultsAndStores :
    busAccess (readAccess 0) idle = .next (idle.setRdata 0x524E4707#32) ∧
    busAccess (writeAccess 0x1C 5#32) idle = .next (idle.setArg0 5#32) := by
  constructor <;>
    simp [busAccess, readAccess, writeAccess, wordAccess, inWindow, accessReg, regAt, Config.windowBytes, idle, State.reset,
      regRead, regWrite, Config.idValue]

theorem witness_CommandIssueLatchesOrOverruns :
    idle.busy = false ∧ State.reset.busy = true ∧ Reg.ctrl ≠ Reg.cmd ∧ Reg.reserved3C ≠ Reg.cmd := by decide

/-- SOFT_RESET; an illegal word, whose own error overwrites ERRCODE; NOP, which leaves OVERRUN recorded. -/
theorem witness_OverrunLeavesThePendingCommand :
    (∀ c ∈ [0xF#32, 0x7#32, 0x0#32], (pend (latch c 0#32 0#32)).busy = true ∧
      (pend (latch c 0#32 0#32)).pending = .command (latch c 0#32 0#32) ∧ (pend (latch c 0#32 0#32)).err = false) ∧
    decode 0xF#32 = .ok .softReset ∧ decode 0x7#32 ≠ .ok .softReset ∧ decode 0x0#32 ≠ .ok .softReset ∧
    look false (·.err) (engineStep (pend (latch 0x7#32 0#32 0#32))) = true ∧
    look true (·.err) (engineStep (pend (latch 0x0#32 0#32 0#32))) = false := by
  refine ⟨fun _ _ => ⟨rfl, rfl, rfl⟩, by decide, by decide, by decide, by decide +kernel, by decide +kernel⟩

/-- One state per clause; the last with one supported access and an engine turn still to happen. -/
theorem witness_EngineStepRunsThePendingOperation :
    idle.pending = .empty ∧ State.reset.pending = .reseed ∧
    (pend (latch 0x200#32 0#32 0#32)).pending = .command (latch 0x200#32 0#32 0#32) ∧
    IllegalWord (latch 0x200#32 0#32 0#32).word ∧
    (pend (latch 0x105#32 6#32 0#32)).pending = .command (latch 0x105#32 6#32 0#32) ∧
    (latch 0x105#32 6#32 0#32).word = encode (.nextBounded .tf) ∧
    (withEvents State.reset [.access (wordAccess 0x3C true 9#32), .engineTurn]).rstN = true ∧
    (withEvents State.reset [.access (wordAccess 0x3C true 9#32), .engineTurn]).pending ≠ .empty ∧
    (∀ e ∈ (withEvents State.reset [.access (wordAccess 0x3C true 9#32), .engineTurn]).inputs, e = .engineTurn ∨
      ∃ off write x, off ∈ registerOffsets ∧ e = .access (wordAccess off write x)) := by
  refine ⟨rfl, rfl, rfl, by unfold IllegalWord; decide, rfl, by decide, rfl, by decide, fun e he => ?_⟩
  rcases List.mem_pair.mp he with rfl | rfl
  · exact .inr ⟨0x3C, true, 9#32, by decide, rfl⟩
  · exact .inl rfl

theorem witness_StepRunsTheDecodedCommand :
    ∀ es ∈ [[], [Event.engineTurn]],
      (withEvents (pend (latch 0x4#32 0#32 0#32)) es).rstN = true ∧
      (withEvents (pend (latch 0x4#32 0#32 0#32)) es).pending = .command (latch 0x4#32 0#32 0#32) ∧
      (withEvents (pend (latch 0x4#32 0#32 0#32)) es).inputs = es ∧
      decode (latch 0x4#32 0#32 0#32).word = .ok (.nextWord .sr) := fun _ _ => ⟨rfl, rfl, rfl, by decide⟩

theorem witness_SnapshotFixesThePendingCommand :
    (∀ c ∈ [0x5#32, 0xF#32], (pend (latch c 10#32 0#32)).pending = .command (latch c 10#32 0#32)) ∧
    decode (latch 0x5#32 10#32 0#32).word ≠ .ok .softReset ∧ decode (latch 0xF#32 10#32 0#32).word = .ok .softReset :=
  ⟨fun _ _ => rfl, by decide, by decide⟩

theorem witness_NopOnlyClearsLastDraws :
    (0x100#32 : W32).extractLsb' 0 8 = 0x00#8 ∧ (0x100#32 : W32) ≠ 0x00000000#32 ∧ State.reset.busy = true := by decide

theorem witness_SeedClearEmptiesTheBuffer :
    (0x101#32 : W32).extractLsb' 0 8 = 0x01#8 ∧ (0x101#32 : W32) ≠ 0x00000001#32 := by decide

/-- SEEDLEN 0, 311 and 312. -/
theorem witness_SeedPushAppendsOrTruncates :
    (0x202#32 : W32).extractLsb' 0 8 = 0x02#8 ∧ (0x202#32 : W32) ≠ 0x00000002#32 ∧
    (∀ n : Fin 313, ({ pend (latch 2#32 1#32 0#32) with seedLen := n }).pending = .command (latch 2#32 1#32 0#32)) ∧
    ({ pend (latch 2#32 1#32 0#32) with seedLen := 0 }).seedLen.val < 312 ∧
    ({ pend (latch 2#32 1#32 0#32) with seedLen := 311 }).seedLen.val < 312 ∧
    ({ pend (latch 2#32 1#32 0#32) with seedLen := 312 }).seedLen.val = 312 := by
  refine ⟨by decide, by decide, fun _ => rfl, by decide, by decide, by decide⟩

/-- The empty buffer and a buffer of one entry. -/
theorem witness_SeedApplyConstructsOneFamily :
    (0x203#32 : W32).extractLsb' 0 8 = 0x03#8 ∧ (0x203#32 : W32).extractLsb' 9 23 ≠ 0#23 ∧
    [0#64] = (if idle.seedLen.val = 0 then [0#64] else (List.range idle.seedLen.val).map fun j => readWord idle.seedBuf j) ∧
    [0#64] = (if ({ idle with seedLen := 1 }).seedLen.val = 0 then [0#64]
      else (List.range ({ idle with seedLen := 1 }).seedLen.val).map fun j => readWord ({ idle with seedLen := 1 }).seedBuf j) := by
  refine ⟨by decide, by decide, by decide +kernel, by decide +kernel⟩

/-- Words 0 (copied), 1 and 15 (extended) of a one-word key. -/
theorem witness_SeedSrMeetsItsRecurrence :
    [0#64] ≠ [] ∧ 0 < 16 ∧ 0 < [0#64].length ∧ 1 < 16 ∧ [0#64].length ≤ 1 ∧ 15 < 16 ∧ [0#64].length ≤ 15 := by decide

/-- Keys of 16, 1 and 15 words, the empty buffer, and two keys that differ in an upper half only. -/
theorem witness_SeedSrConsequences :
    16 ≤ (List.replicate 16 0#64).length ∧
    (∀ j, j < 16 → ((List.replicate 16 0#64).getD j 0#64).setWidth 32 = 0#32) ∧
    (∀ n, n = 1 ∨ n = 15 → 1 ≤ (List.replicate n 0#64).length ∧ (List.replicate n 0#64).length < 16 ∧
      ∀ j, j < (List.replicate n 0#64).length → ((List.replicate n 0#64).getD j 0#64).setWidth 32 = 0#32) ∧
    idle.seedLen.val = 0 ∧ [0xFFFFFFFF00000001#64].length = [0x1#64].length ∧
    (∀ j, ([0xFFFFFFFF00000001#64].getD j 0#64).setWidth 32 = (([0x1#64].getD j 0#64).setWidth 32 : W32)) := by
  refine ⟨by decide, by decide, ?_, by decide, rfl, fun j => by cases j <;> simp⟩
  rintro n (rfl | rfl) <;> decide

/-- Keys of 1 and of 312 words, the ends of the index ranges. -/
theorem witness_SeedTfMeetsItsRecurrence :
    1 ≤ [0#64].length ∧ [0#64].length ≤ 312 ∧ 1 ≤ (List.replicate 312 0#64).length ∧
    (List.replicate 312 0#64).length ≤ 312 ∧ 1 ≤ 1 ∧ 1 ≤ 311 ∧ 2 ≤ 2 ∧ 2 ≤ 311 := by decide +kernel

theorem witness_SeedTfIsFunctional : idle.seedLen.val = 0 := by decide

/-- The equations name intermediate words, which exist for every state; here with the cursor at 0, where im1 wraps, and a
slot k that is neither of the two written. -/
theorem witness_SrStepWritesTwoWords :
    ∃ (u : SrUnit) (i im1 : Nat) (vi vm1 vm2 z0 z1 z2 z3 z4 : W32),
      i = u.idx.val ∧ im1 = (i + 15) % 16 ∧ vi = readWord u.v i ∧ vm1 = readWord u.v ((i + 13) % 16) ∧
      vm2 = readWord u.v ((i + 9) % 16) ∧ z0 = readWord u.v im1 ∧
      z1 = (vi ^^^ (vi <<< 16)) ^^^ (vm1 ^^^ (vm1 <<< 15)) ∧ z2 = vm2 ^^^ (vm2 >>> 11) ∧ z3 = z1 ^^^ z2 ∧
      z4 = (z0 ^^^ (z0 <<< 2)) ^^^ (z1 ^^^ (z1 <<< 18)) ^^^ (z2 <<< 28) ^^^ (z3 ^^^ ((z3 <<< 5) &&& 0xDA442D24#32)) ∧
      i = 0 ∧ im1 = 15 ∧ 1 ≠ i ∧ 1 ≠ im1 :=
  ⟨idle.units.sr, 0, 15, _, _, _, _, _, _, _, _, rfl, rfl, rfl, rfl, rfl, rfl, rfl, rfl, rfl, rfl, rfl, rfl, by decide,
    by decide⟩

theorem witness_SrDrawTempersWithoutMutating :
    ∃ (u : SrUnit) (z t : W32), z = (srStep u).1 ∧ t = z ^^^ ((z <<< 7) &&& 0xE46E1700#32) := ⟨idle.units.sr, _, _, rfl, rfl⟩

theorem witness_AllZeroSrStateIsAFixedPoint :
    (⟨Vector.replicate 16 0#32, 5⟩ : SrUnit).v = Vector.replicate 16 0#32 ∧
    idle.units.sr.v = Vector.replicate 16 0#32 := ⟨rfl, rfl⟩

/-- The words 0, 155, 156 and 311, where the cases of the two index wraps meet. -/
theorem witness_TwistMeetsItsRecurrence :
    ∀ i ∈ [0, 155, 156, 311], ∃ nxt mid y : W64, i < 312 ∧
      nxt = (if i = 311 then readWord (twist idle.units.tf.mt) 0 else readWord idle.units.tf.mt (i + 1)) ∧
      mid = (if i < 156 then readWord idle.units.tf.mt (i + 156) else readWord (twist idle.units.tf.mt) (i - 156)) ∧
      y = (readWord idle.units.tf.mt i &&& 0xFFFFFFFF80000000#64) ||| (nxt &&& 0x000000007FFFFFFF#64) :=
  fun i hi => ⟨_, _, _, by revert i; decide, rfl, rfl, rfl⟩

/-- Two stores that differ in the lowest bit of word 0. -/
theorem witness_TwistIgnoresTheLowBitsOfWordZero :
    writeWord idle.units.tf.mt 0 1#64 ≠ idle.units.tf.mt ∧
    (readWord (writeWord idle.units.tf.mt 0 1#64) 0).extractLsb' 31 33 = (readWord idle.units.tf.mt 0).extractLsb' 31 33 ∧
    (∀ k, 1 ≤ k → k < 312 → readWord (writeWord idle.units.tf.mt 0 1#64) k = readWord idle.units.tf.mt k) :=
  ⟨fun h => absurd (congrArg (readWord · 0) h) (by simp [idle, State.reset]), by simp [idle, State.reset],
    fun k h _ => readWord_writeWord_ne _ _ (by omega)⟩

/-- The cursor at 312 and at 311. -/
theorem witness_TfDrawTempersTheStoredWord :
    (∃ (u : TfUnit) (mt : Vector W64 312) (i : Nat), u.idx.val = 312 ∧ (u.idx.val = 312 → mt = twist u.mt ∧ i = 0) ∧
      (u.idx.val ≠ 312 → mt = u.mt ∧ i = u.idx.val)) ∧
    (∃ (u : TfUnit) (mt : Vector W64 312) (i : Nat), u.idx.val ≠ 312 ∧ (u.idx.val = 312 → mt = twist u.mt ∧ i = 0) ∧
      (u.idx.val ≠ 312 → mt = u.mt ∧ i = u.idx.val)) :=
  ⟨⟨⟨idle.units.tf.mt, 312⟩, _, _, rfl, fun _ => ⟨rfl, rfl⟩, fun h => absurd rfl h⟩,
    ⟨⟨idle.units.tf.mt, 311⟩, _, _, by decide, fun h => absurd h (by decide), fun _ => ⟨rfl, rfl⟩⟩⟩

theorem witness_TfDrawsReturnTheBlockInOrder :
    (⟨idle.units.tf.mt, 312⟩ : TfUnit).idx.val = 312 ∧ 0 < 312 ∧ 311 < 312 ∧ 1 ≤ 1 ∧ 1 ≤ 312 ∧ 312 ≤ 312 := by decide

theorem witness_NextWordReturnsOneRawDraw :
    (0x204#32 : W32).extractLsb' 0 8 = 0x04#8 ∧ (0x204#32 : W32).extractLsb' 9 23 ≠ 0#23 ∧
    (pend (latch 0x4#32 0#32 0#32)).pending = .command (latch 0x4#32 0#32 0#32) := ⟨by decide, by decide, rfl⟩

theorem witness_CommandsTouchOnlyTheirFamily :
    Instr.nextWord .sr ∈ [.seedApply .sr, .nextWord .sr, .nextBounded .sr, .nextBoundedPair .sr] ∧
    Instr.nextWord .tf ∈ [.seedApply .tf, .nextWord .tf, .nextBounded .tf, .nextBoundedPair .tf] := by decide

/-- After reset the bound 5 rejects the SR word FEE5E74E (lanes 6, 5) and takes 3 of the next, as program P3's trace
says; with cap 1 every word allowed is rejected. -/
theorem witness_BoundedFollowsThePseudocode :
    1 ≤ 5 ∧ 5 ≤ 2 ^ 31 - 1 ∧ 1 < 2 ∧
    (∀ j, j < 1 → acceptSpec 5 0x8000 (sampleAt .sr true j (pendSr (latch 5#32 5#32 0#32)).units) = none) ∧
    acceptSpec 5 0x8000 (sampleAt .sr true 1 (pendSr (latch 5#32 5#32 0#32)).units) = some 3 ∧
    acceptSpec 1 0x8000 (sampleAt .tf true 0 idle.units) = some 0 ∧
    acceptSpec (2 ^ 31 - 1) 0x8000 (sampleAt .sr true 0 idle.units) = some 0 := by
  refine ⟨by decide, by decide, by decide, by decide +kernel, by decide +kernel, ?_, by decide +kernel⟩
  simp [acceptSpec, Nat.mod_one]

/-- The smallest and the largest bound of the SMALL path. -/
theorem witness_SmallPathMasksTwoLanes :
    (1 ≤ 3 ∧ 3 &&& (3 - 1) ≠ 0 ∧ 3 < 4 ∧ 4 ≤ 0x10000 ∧ 2 = Nat.size (3 - 1)) ∧
    (1 ≤ 0xFFFF ∧ 0xFFFF &&& (0xFFFF - 1) ≠ 0 ∧ 0xFFFF < 0x10000 ∧ 0x10000 ≤ 0x10000 ∧ 16 = Nat.size (0xFFFF - 1)) := by
  decide +kernel

/-- The bound equal to the threshold, and the largest bound. -/
theorem witness_FullPathRejectsAboveTheLargestMultiple :
    (1 ≤ 3 ∧ 3 ≤ 2 ^ 31 - 1 ∧ 3 &&& (3 - 1) ≠ 0 ∧ 3 ≤ 3) ∧
    (1 ≤ 2 ^ 31 - 1 ∧ 2 ^ 31 - 1 ≤ 2 ^ 31 - 1 ∧ (2 ^ 31 - 1) &&& (2 ^ 31 - 1 - 1) ≠ 0 ∧ 0x8000 ≤ 2 ^ 31 - 1) := by
  decide +kernel

/-- The bound 5 with one rejected word, and the largest bound, each with the latched operand itself. -/
theorem witness_NextBoundedReturnsTheFirstAcceptedSample :
    (pendSr (latch 5#32 5#32 0#32)).pending = .command (latch 5#32 5#32 0#32) ∧
    1 ≤ (latch 5#32 5#32 0#32).arg0.toNat ∧ (latch 5#32 5#32 0#32).arg0.toNat < 2 ^ 31 ∧ 1 < 0x100000 ∧
    (∀ j, j < 1 → acceptSpec (latch 5#32 5#32 0#32).arg0.toNat (latch 5#32 5#32 0#32).thresh.toNat
      (sampleAt .sr (latch 5#32 5#32 0#32).srtemp j (pendSr (latch 5#32 5#32 0#32)).units) = none) ∧
    acceptSpec (latch 5#32 5#32 0#32).arg0.toNat (latch 5#32 5#32 0#32).thresh.toNat
      (sampleAt .sr (latch 5#32 5#32 0#32).srtemp 1 (pendSr (latch 5#32 5#32 0#32)).units) = some 3 ∧
    (latch 5#32 0x7FFFFFFF#32 0#32).arg0.toNat < 2 ^ 31 := by
  refine ⟨rfl, by decide, by decide, by decide, by decide +kernel, by decide +kernel, by decide⟩

/-- The bounds 1 and 2^30. -/
theorem witness_PowerOfTwoBoundNeedsOneDraw :
    (pend (latch 5#32 1#32 0#32)).pending = .command (latch 5#32 1#32 0#32) ∧ (latch 5#32 1#32 0#32).arg0.toNat = 2 ^ 0 ∧
    (pend (latch 5#32 0x40000000#32 0#32)).pending = .command (latch 5#32 0x40000000#32 0#32) ∧ 30 ≤ 30 ∧
    (latch 5#32 0x40000000#32 0#32).arg0.toNat = 2 ^ 30 := ⟨rfl, by decide, rfl, by decide, by decide⟩

theorem witness_SamplesStayBelowTheBound :
    1 ≤ 5 ∧ 5 ≤ 2 ^ 31 - 1 ∧ ∃ u', bounded 2 .sr true 5 0x8000 (pendSr (latch 5#32 5#32 0#32)).units = (u', some (3, 2)) :=
  ⟨by decide, by decide, _, Prod.ext rfl (by decide +kernel)⟩

/-- The bounds 1, 3 and 2^31 - 1 with values at the ends of [0, b). -/
theorem witness_SamplerIsExactlyUniform :
    (1 ≤ 1 ∧ 1 ≤ 2 ^ 31 - 1 ∧ 0 < 1) ∧ (1 ≤ 3 ∧ 3 ≤ 2 ^ 31 - 1 ∧ 0x10000 ≤ 0x10000 ∧ 0 < 3 ∧ 2 < 3) ∧
    (1 ≤ 2 ^ 31 - 1 ∧ 2 ^ 31 - 1 ≤ 2 ^ 31 - 1 ∧ 0 < 2 ^ 31 - 1 ∧ 2 ^ 31 - 2 < 2 ^ 31 - 1) := by decide

/-- The cap 1 and the bound 5 after reset: the one word allowed is rejected; and legal operands of both commands. -/
theorem witness_RejectCapEndsTheCommand :
    (pendSr (latch 5#32 5#32 0#32)).pending = .command (latch 5#32 5#32 0#32) ∧ 1 ≤ 5 ∧ 5 ≤ 2 ^ 31 - 1 ∧
    (∀ j, j < 1 → acceptSpec 5 (latch 5#32 5#32 0#32).thresh.toNat
      (sampleAt .sr (latch 5#32 5#32 0#32).srtemp j (pendSr (latch 5#32 5#32 0#32)).units) = none) ∧
    1 ≤ (latch 6#32 0x7FFFFFFF#32 1#32).arg0.toNat ∧ (latch 6#32 0x7FFFFFFF#32 1#32).arg0.toNat < 2 ^ 31 ∧
    1 ≤ (latch 6#32 0x7FFFFFFF#32 1#32).arg1.toNat ∧ (latch 6#32 0x7FFFFFFF#32 1#32).arg1.toNat < 2 ^ 31 ∧
    (latch 6#32 0x7FFFFFFF#32 1#32).arg0.toNat * (latch 6#32 0x7FFFFFFF#32 1#32).arg1.toNat < 2 ^ 31 := by
  refine ⟨rfl, by decide, by decide, by decide +kernel, by decide, by decide, by decide, by decide, by decide⟩

/-- ARG0 = 0 and ARG0 = 0x80000000, both pending. -/
theorem witness_NonPositiveBoundRaisesInvalidBound :
    (pend (latch 5#32 0#32 0#32)).pending = .command (latch 5#32 0#32 0#32) ∧ (latch 5#32 0#32 0#32).arg0.toNat = 0 ∧
    (pend (latch 5#32 0x80000000#32 0#32)).pending = .command (latch 5#32 0x80000000#32 0#32) ∧
    2 ^ 31 ≤ (latch 5#32 0x80000000#32 0#32).arg0.toNat := ⟨rfl, by decide, rfl, by decide⟩

/-- The pair 5, 1: the first SR word after reset rejected, 3 of the second. -/
theorem witness_NextBoundedPairSplitsOneSample :
    (pendSr (latch 6#32 5#32 1#32)).pending = .command (latch 6#32 5#32 1#32) ∧
    1 ≤ (latch 6#32 5#32 1#32).arg0.toNat ∧ (latch 6#32 5#32 1#32).arg0.toNat < 2 ^ 31 ∧
    1 ≤ (latch 6#32 5#32 1#32).arg1.toNat ∧ (latch 6#32 5#32 1#32).arg1.toNat < 2 ^ 31 ∧
    (latch 6#32 5#32 1#32).arg0.toNat * (latch 6#32 5#32 1#32).arg1.toNat < 2 ^ 31 ∧ 1 < 0x100000 ∧
    (∀ j, j < 1 → acceptSpec ((latch 6#32 5#32 1#32).arg0.toNat * (latch 6#32 5#32 1#32).arg1.toNat)
      (latch 6#32 5#32 1#32).thresh.toNat
      (sampleAt .sr (latch 6#32 5#32 1#32).srtemp j (pendSr (latch 6#32 5#32 1#32)).units) = none) ∧
    acceptSpec ((latch 6#32 5#32 1#32).arg0.toNat * (latch 6#32 5#32 1#32).arg1.toNat) (latch 6#32 5#32 1#32).thresh.toNat
      (sampleAt .sr (latch 6#32 5#32 1#32).srtemp 1 (pendSr (latch 6#32 5#32 1#32)).units) = some 3 := by
  refine ⟨rfl, by decide, by decide, by decide, by decide, by decide, by decide, by decide +kernel, by decide +kernel⟩

/-- Each disjunct: a zero or negative first bound, a zero or negative second bound, the products 2^31 and 46341^2. -/
theorem witness_BadPairRaisesInvalidPair :
    (∀ p ∈ [(0#32, 5#32), (0x80000000#32, 1#32), (5#32, 0#32), (1#32, 0xFFFFFFFF#32), (0x10000#32, 0x8000#32),
        (46341#32, 46341#32)],
      (pend (latch 6#32 p.1 p.2)).pending = .command (latch 6#32 p.1 p.2)) ∧
    (latch 6#32 0#32 5#32).arg0.toNat = 0 ∧ 2 ^ 31 ≤ (latch 6#32 0x80000000#32 1#32).arg0.toNat ∧
    (latch 6#32 5#32 0#32).arg1.toNat = 0 ∧ 2 ^ 31 ≤ (latch 6#32 1#32 0xFFFFFFFF#32).arg1.toNat ∧
    2 ^ 31 ≤ (latch 6#32 0x10000#32 0x8000#32).arg0.toNat * (latch 6#32 0x10000#32 0x8000#32).arg1.toNat ∧
    2 ^ 31 ≤ (latch 6#32 46341#32 46341#32).arg0.toNat * (latch 6#32 46341#32 46341#32).arg1.toNat :=
  ⟨fun _ _ => rfl, by decide, by decide, by decide, by decide, by decide, by decide⟩

/-- The largest product, 2^31 - 1, and the ends of the value range and of both index ranges. -/
theorem witness_PairDecompositionIsABijection :
    1 ≤ 2 ^ 31 - 1 ∧ 1 ≤ 1 ∧ (2 ^ 31 - 1) * 1 < 2 ^ 31 ∧ 0 < (2 ^ 31 - 1) * 1 ∧ 2 ^ 31 - 2 < (2 ^ 31 - 1) * 1 ∧
    2 ^ 31 - 2 < 2 ^ 31 - 1 ∧ 0 < 1 := by decide

/-- One state per clause: BUSY = 1; an illegal word with ARG0 = 0; the two bad operands with their words; a command that
starts with ERR = 0 and ends with ERR = 1. -/
theorem witness_ErrorChecksInOrder :
    State.reset.busy = true ∧
    (∀ c ∈ [0x107#32, 0x5#32, 0x6#32], (pend (latch c 0#32 0#32)).pending = .command (latch c 0#32 0#32)) ∧
    IllegalWord (latch 0x107#32 0#32 0#32).word ∧ (latch 0x5#32 0#32 0#32).word = encode (.nextBounded .sr) ∧
    (latch 0x6#32 0#32 0#32).word = encode (.nextBoundedPair .sr) ∧ (latch 0x5#32 0#32 0#32).arg0.toNat = 0 ∧
    ∃ t, exec (.nextBounded .sr) (pend (latch 0x5#32 0#32 0#32)) = .next t ∧
      (pend (latch 0x5#32 0#32 0#32)).err = false ∧ t.err = true :=
  ⟨rfl, fun _ _ => rfl, by unfold IllegalWord; decide, by decide, by decide, by decide, _, rfl, rfl, rfl⟩

theorem witness_ErrorsDoNotBlockCommands : (2#32 : W32).getLsbD 1 = true := by decide

/-- The state after reset, and the state its first step leads to. -/
theorem witness_StepKeepsTheInvariants : State.reset.Inv ∧ step State.reset = .next (reseed State.reset).complete := by
  refine ⟨⟨by decide, by decide, by decide, by decide, by decide, by decide, by decide, by decide, ?_⟩, rfl⟩
  intro l h
  exact absurd h (by simp [State.reset])

/-- A draw that changes RES0, and a reset that clears it. -/
theorem witness_ResultsChangeOnlyByDrawsAndReset :
    (∃ t, step (pendSr (latch 4#32 0#32 0#32)) = .next t ∧ t.res0 ≠ (pendSr (latch 4#32 0#32 0#32)).res0) ∧
    (∃ t, step (withEvents { idle with res1 := 7#32 } [.reset]) = .next t ∧ t.res1 ≠ 7#32) :=
  ⟨⟨_, rfl, by decide +kernel⟩, ⟨_, rfl, by decide +kernel⟩⟩

/-- The RESEED step changes both units; SEED_PUSH changes the buffer. -/
theorem witness_StoresChangeOnlyByTheirWriters :
    (∃ t, step State.reset = .next t ∧ t.units.sr ≠ State.reset.units.sr) ∧
    (∃ t, step State.reset = .next t ∧ t.units.tf ≠ State.reset.units.tf) ∧
    (∃ t, step (pend (latch 2#32 1#32 0#32)) = .next t ∧ t.seedBuf ≠ (pend (latch 2#32 1#32 0#32)).seedBuf) := by
  refine ⟨⟨(reseed State.reset).complete, rfl, fun h => absurd (congrArg (fun u => readWord u.v 1) h) ?_⟩,
    ⟨(reseed State.reset).complete, rfl, fun h => absurd (congrArg TfUnit.idx h) ?_⟩,
    ⟨_, rfl, fun h => absurd (congrArg (readWord · 0) h) ?_⟩⟩
  · decide +kernel
  · simp [State.reset]
  · decide +kernel

end Sys2Proof.Tests
end

section
/-! What one command can do, said once: NEXT_WORD, NEXT_BOUNDED and NEXT_BOUNDED_PAIR make at most REJECT_CAP raw draws
and then place results or record an error; every other command has a single effect. -/

namespace Sys2Proof.Machine

/-- The commands that make raw draws of family f (30_encoding.md R93). -/
def drawCommands (f : Fam) : List Instr := [.nextWord f, .nextBounded f, .nextBoundedPair f]

/-- State t follows from s by n raw draws of family f, at most REJECT_CAP of them, and then by placing results or by
recording an error (41_generators.md R141, 42_sampler.md R167, R170, R171). -/
def State.DrawsTo (f : Fam) (s t : State) : Prop :=
  ∃ n ≤ Config.rejectCap,
    (∃ r0 r1, t = ((s.setUnits (unitsAfter f s.operands.srtemp n s.units)).setResults r0 r1).setLastDraws n) ∨
    (∃ e, t = ((s.setUnits (unitsAfter f s.operands.srtemp n s.units)).setLastDraws n).raise e)

/-- The units after Bounded are those after the draws it made, and it makes at most `cap` (42_sampler.md R167). -/
theorem bounded_cases (cap : Nat) (f : Fam) (srtemp : Bool) (b t : Nat) (u : Units) :
    (∃ n v, n ≤ cap ∧ bounded cap f srtemp b t u = (unitsAfter f srtemp n u, some (v, n))) ∨
    bounded cap f srtemp b t u = (unitsAfter f srtemp cap u, none) := by
  obtain ⟨k, v, hk, -, -, e⟩ | ⟨-, e⟩ := sampleLoop_cases f srtemp (candidate (choosePath b t) b) cap 0 u
  · exact .inl ⟨k + 1, v, hk, by rw [bounded, e, Nat.zero_add]⟩
  · exact .inr e

theorem runSample_drawsTo (f : Fam) (b : Nat) (place : Nat → W32 × W32) (s : State) :
    s.DrawsTo f (runSample Config.rejectCap f b place s) := by
  unfold runSample
  obtain ⟨n, v, hn, e⟩ | e := bounded_cases Config.rejectCap f s.operands.srtemp b s.operands.thresh.toNat s.units
  · rw [e]; exact ⟨n, hn, .inl ⟨_, _, rfl⟩⟩
  · rw [e]; exact ⟨_, le_rfl, .inr ⟨_, rfl⟩⟩

/-- An operand check that fails is the case of no draws (60_exceptions.md R203, R204). -/
theorem raise_drawsTo (f : Fam) (e : ErrorCause) (s : State) : s.DrawsTo f ((s.setLastDraws 0).raise e) :=
  ⟨0, Nat.zero_le _, .inr ⟨e, rfl⟩⟩

theorem execNextWord_drawsTo {f : Fam} {s t : State} (h : execNextWord f s = .next t) : s.DrawsTo f t := by
  injection h with h
  subst h
  exact ⟨1, by decide, .inl ⟨_, _, rfl⟩⟩

theorem execNextBounded_drawsTo {f : Fam} {s t : State} (h : execNextBounded f s = .next t) : s.DrawsTo f t := by
  simp only [execNextBounded] at h
  split at h <;> injection h with h <;> subst h
  · exact raise_drawsTo f _ s
  · exact runSample_drawsTo f _ _ s

theorem execNextBoundedPair_drawsTo {f : Fam} {s t : State} (h : execNextBoundedPair f s = .next t) :
    s.DrawsTo f t := by
  simp only [execNextBoundedPair] at h
  split at h <;> injection h with h <;> subst h
  · exact raise_drawsTo f _ s
  · exact runSample_drawsTo f _ _ s

/-- Everything a command can do (43_control.md R191). -/
theorem exec_cases {i : Instr} {s t : State} (h : exec i s = .next t) :
    (i = .nop ∧ t = s.setLastDraws 0) ∨
    (i = .seedClear ∧ t = s.clearSeed.setLastDraws 0) ∨
    (i = .seedPush ∧ t = (s.pushSeed s.operands.seedWord).setLastDraws 0) ∨
    (∃ f, i = .seedApply f ∧ t = (s.setUnits (s.units.seed f s.seedKey)).setLastDraws 0) ∨
    (∃ f, i ∈ drawCommands f ∧ s.DrawsTo f t) ∨
    (i = .softReset ∧ t = reseed (resetState s)) := by
  cases i with
  | nop => injection h with h; exact .inl ⟨rfl, h.symm⟩
  | seedClear => injection h with h; exact .inr (.inl ⟨rfl, h.symm⟩)
  | seedPush => injection h with h; exact .inr (.inr (.inl ⟨rfl, h.symm⟩))
  | seedApply f => injection h with h; exact .inr (.inr (.inr (.inl ⟨f, rfl, h.symm⟩)))
  | nextWord f =>
    exact .inr (.inr (.inr (.inr (.inl ⟨f, by simp [drawCommands], execNextWord_drawsTo h⟩))))
  | nextBounded f =>
    exact .inr (.inr (.inr (.inr (.inl ⟨f, by simp [drawCommands], execNextBounded_drawsTo h⟩))))
  | nextBoundedPair f =>
    exact .inr (.inr (.inr (.inr (.inl ⟨f, by simp [drawCommands], execNextBoundedPair_drawsTo h⟩))))
  | softReset => injection h with h; exact .inr (.inr (.inr (.inr (.inr ⟨rfl, h.symm⟩))))

end Sys2Proof.Machine
end

section
/-! The invariants of 10_state.md R48. The bounds of the cursors and of SEEDLEN hold by their types; the rest splits into
a part about the registers, which commands keep, and a part about PENDING, which completion and command issue restore. -/

namespace Sys2Proof.Machine

variable {s t : State}

/-- The invariants of the registers: THRESH legal, ERRCODE 0 iff ERR 0, only produced codes, LASTDRAWS within the cap. -/
def State.RegistersInRange (s : State) : Prop :=
  s.thresh.toNat ≤ 0x10000 ∧ (s.errCode = 0#4 ↔ s.err = false) ∧ s.errCode.toNat ≤ 5 ∧ s.lastDraws.toNat ≤ 0x100000

/-- The invariants of PENDING: BUSY = 1 iff it is not empty, and a latched THRESH is legal. -/
def State.PendingInRange (s : State) : Prop :=
  (s.busy = true ↔ s.pending ≠ .empty) ∧ ∀ l, s.pending = .command l → l.thresh.toNat ≤ 0x10000

theorem State.Inv.registers (h : s.Inv) : s.RegistersInRange := ⟨h.thresh, h.errCode, h.errCodeProduced, h.lastDraws⟩

theorem State.Inv.pendingInRange (h : s.Inv) : s.PendingInRange := ⟨h.busy, h.latched⟩

/-- The two parts give the invariants: the cursors and SEEDLEN are in range by their types. -/
theorem State.Inv.of_parts (hr : s.RegistersInRange) (hp : s.PendingInRange) : s.Inv := by
  obtain ⟨hthresh, herr, hcode, hdraws⟩ := hr
  obtain ⟨hbusy, hlatched⟩ := hp
  exact ⟨by omega, by omega, by omega, hthresh, hbusy, herr, hcode, hdraws, hlatched⟩

theorem State.RegistersInRange.setLastDraws (h : s.RegistersInRange) {n : Nat} (hn : n ≤ Config.rejectCap) :
    (s.setLastDraws n).RegistersInRange := by
  obtain ⟨hthresh, herr, hcode, -⟩ := h
  refine ⟨hthresh, herr, hcode, ?_⟩
  rw [State.setLastDraws_lastDraws, BitVec.toNat_ofNat]
  exact (Nat.mod_le n _).trans hn

/-- Every error has a code from 1 to 5 (60_exceptions.md R200). -/
theorem State.RegistersInRange.raise (h : s.RegistersInRange) (e : ErrorCause) : (s.raise e).RegistersInRange := by
  obtain ⟨hthresh, -, -, hdraws⟩ := h
  have hcode : (e.code = 0#4 ↔ true = false) ∧ e.code.toNat ≤ 5 := by cases e <;> decide
  exact ⟨hthresh, hcode.1, hcode.2, hdraws⟩

theorem State.RegistersInRange.clearError (h : s.RegistersInRange) : s.clearError.RegistersInRange := by
  obtain ⟨hthresh, -, -, hdraws⟩ := h
  exact ⟨hthresh, by simp, by simp, hdraws⟩

theorem State.RegistersInRange.setThresh (h : s.RegistersInRange) {x : W32} (hx : x.toNat ≤ 0x10000) :
    (s.setThresh x).RegistersInRange := by
  obtain ⟨-, herr, hcode, hdraws⟩ := h
  exact ⟨hx, herr, hcode, hdraws⟩

theorem State.RegistersInRange.pushSeed (h : s.RegistersInRange) (w : W64) : (s.pushSeed w).RegistersInRange := by
  unfold State.pushSeed
  split <;> exact h

theorem resetState_registersInRange (s : State) : (resetState s).RegistersInRange :=
  ⟨by simp, by simp, by simp, by simp⟩

theorem hardReset_inv (s : State) : (hardReset s).Inv :=
  .of_parts (resetState_registersInRange s) ⟨by simp, by simp⟩

/-- Draws and their results leave THRESH alone, set LASTDRAWS within the cap, and record a produced code if any. -/
theorem State.DrawsTo.registersInRange {f : Fam} (h : s.DrawsTo f t) (hs : s.RegistersInRange) :
    t.RegistersInRange := by
  obtain ⟨n, hn, ⟨r0, r1, rfl⟩ | ⟨e, rfl⟩⟩ := h
  · exact State.RegistersInRange.setLastDraws (s := (s.setUnits _).setResults r0 r1) hs hn
  · exact (State.RegistersInRange.setLastDraws (s := s.setUnits _) hs hn).raise e

theorem exec_keeps_registersInRange {i : Instr} (h : exec i s = .next t) (hs : s.RegistersInRange) :
    t.RegistersInRange := by
  have h0 : 0 ≤ Config.rejectCap := Nat.zero_le _
  obtain ⟨-, rfl⟩ | ⟨-, rfl⟩ | ⟨-, rfl⟩ | ⟨f, -, rfl⟩ | ⟨f, -, hd⟩ | ⟨-, rfl⟩ := exec_cases h
  · exact hs.setLastDraws h0
  · exact State.RegistersInRange.setLastDraws (s := s.clearSeed) hs h0
  · exact (hs.pushSeed _).setLastDraws h0
  · exact State.RegistersInRange.setLastDraws (s := s.setUnits _) hs h0
  · exact hd.registersInRange hs
  · exact resetState_registersInRange s

/-- Completion empties PENDING and clears BUSY together (43_control.md R191). -/
theorem State.RegistersInRange.complete_inv (h : s.RegistersInRange) : s.complete.Inv :=
  .of_parts h ⟨by simp, by simp⟩

theorem engineStep_keeps_inv (h : engineStep s = .next t) (hs : s.Inv) : t.Inv := by
  have h0 := hs.registers.setLastDraws (Nat.zero_le Config.rejectCap)
  obtain ⟨-, rfl⟩ | ⟨-, rfl⟩ | ⟨l, -, ⟨e, -, rfl⟩ | ⟨i, t', -, hx, rfl⟩⟩ := engineStep_cases h
  · exact hs
  · exact State.RegistersInRange.complete_inv (s := reseed s) hs.registers
  · exact (h0.raise _).complete_inv
  · exact (exec_keeps_registersInRange hx h0).complete_inv

theorem engineTurn_keeps_inv (h : engineTurn s = .next t) (hs : s.Inv) : t.Inv := by
  unfold engineTurn at h
  split at h
  · exact engineStep_keeps_inv h hs
  · injection h with h; exact h ▸ hs

/-- A register write keeps the invariants: THRESH is legalised, and a latched command takes that legal THRESH. -/
theorem regWrite_keeps_inv (r : Reg) (x : W32) (hs : s.Inv) : (regWrite r x s).Inv := by
  have hr := hs.registers
  have hp := hs.pendingInRange
  obtain e | e | e | e | e | e | ⟨-, e⟩ | ⟨-, e⟩ := regWrite_cases r x s <;> rw [e]
  · exact hs
  · exact .of_parts hr hp
  · exact .of_parts hr.clearError hp
  · exact .of_parts (hr.setThresh (legalThresh_le x)) hp
  · exact .of_parts hr hp
  · exact .of_parts hr hp
  · exact .of_parts (hr.raise _) hp
  · refine .of_parts hr ⟨by simp, fun l hl => ?_⟩
    injection hl with hl
    exact hl ▸ hs.thresh

theorem busAccess_keeps_inv {a : Access} (h : busAccess a s = .next t) (hs : s.Inv) : t.Inv := by
  obtain ⟨-, -, r, -, ⟨-, rfl⟩ | ⟨-, rfl⟩⟩ := busAccess_next h
  · exact regWrite_keeps_inv r _ hs
  · exact .of_parts hs.registers hs.pendingInRange

theorem runEvent_keeps_inv {e : Event} (h : runEvent e s = .next t) (hs : s.Inv) : t.Inv := by
  cases e with
  | access a => exact busAccess_keeps_inv h hs
  | engineTurn => exact engineTurn_keeps_inv h hs
  | rstLow => injection h with h; subst h; exact .of_parts hs.registers hs.pendingInRange
  | rstHigh =>
    simp only [runEvent] at h
    split at h <;> injection h with h <;> subst h
    · exact hs
    · exact hardReset_inv s
  | reset => injection h with h; subst h; exact hardReset_inv s

/-- Settles O55: the engine's turn and every event keep the invariants, and taking an event off the list does not touch
them. -/
theorem stepKeepsTheInvariants : Obligations.StepKeepsTheInvariants := by
  intro s t hs h
  obtain ⟨-, h⟩ | ⟨e, rest, -, h⟩ := step_cases h
  · exact engineTurn_keeps_inv h hs
  · exact runEvent_keeps_inv h (.of_parts hs.registers hs.pendingInRange)

end Sys2Proof.Machine
end

section
/-! Who writes RES0 and RES1 (10_state.md R41, R42): level by level, from the command to the step. -/

namespace Sys2Proof.Machine

variable {s t : State}

/-- RES0 and RES1 are the same in both states. -/
def State.SameResults (s t : State) : Prop := t.res0 = s.res0 ∧ t.res1 = s.res1

/-- Command i may write the results on its way from s to t: it is SOFT_RESET, or a drawing command that records no
error. -/
def MayWriteResults (i : Instr) (s t : State) : Prop :=
  i = .softReset ∨ ((∃ f, i ∈ drawCommands f) ∧ t.err = s.err ∧ t.errCode = s.errCode)

/-- Of the two ends of a drawing command, the error leaves the results and the placing leaves the error. -/
theorem State.DrawsTo.results {f : Fam} (h : s.DrawsTo f t) :
    s.SameResults t ∨ (t.err = s.err ∧ t.errCode = s.errCode) := by
  obtain ⟨n, -, ⟨r0, r1, rfl⟩ | ⟨e, rfl⟩⟩ := h
  · exact .inr ⟨rfl, rfl⟩
  · exact .inl ⟨rfl, rfl⟩

theorem State.pushSeed_results (s : State) (w : W64) : s.SameResults (s.pushSeed w) := by
  unfold State.pushSeed
  split <;> exact ⟨rfl, rfl⟩

theorem exec_results {i : Instr} (h : exec i s = .next t) : s.SameResults t ∨ MayWriteResults i s t := by
  obtain ⟨-, rfl⟩ | ⟨-, rfl⟩ | ⟨-, rfl⟩ | ⟨f, -, rfl⟩ | ⟨f, hi, hd⟩ | ⟨hi, -⟩ := exec_cases h
  · exact .inl ⟨rfl, rfl⟩
  · exact .inl ⟨rfl, rfl⟩
  · exact .inl (s.pushSeed_results _)
  · exact .inl ⟨rfl, rfl⟩
  · exact hd.results.imp_right fun herr => .inr ⟨⟨f, hi⟩, herr⟩
  · exact .inr (.inl hi)

theorem engineStep_results (h : engineStep s = .next t) :
    s.SameResults t ∨ ∃ l i, s.pending = .command l ∧ decode l.word = .ok i ∧ MayWriteResults i s t := by
  obtain ⟨-, rfl⟩ | ⟨-, rfl⟩ | ⟨l, hl, ⟨e, -, rfl⟩ | ⟨i, t', hi, hx, rfl⟩⟩ := engineStep_cases h
  · exact .inl ⟨rfl, rfl⟩
  · exact .inl ⟨rfl, rfl⟩
  · exact .inl ⟨rfl, rfl⟩
  · exact (exec_results hx).imp id fun hw => ⟨l, i, hl, hi, hw⟩

/-- A turn that changes the results is an engine step of a block out of reset. -/
theorem engineTurn_results (h : engineTurn s = .next t) :
    s.SameResults t ∨
      (s.rstN = true ∧ ∃ l i, s.pending = .command l ∧ decode l.word = .ok i ∧ MayWriteResults i s t) := by
  unfold engineTurn at h
  split at h
  · exact (engineStep_results h).imp_right fun hw => ⟨‹_›, hw⟩
  · injection h with h; subst h; exact .inl ⟨rfl, rfl⟩

theorem busAccess_results {a : Access} (h : busAccess a s = .next t) : s.SameResults t := by
  obtain ⟨-, -, r, -, ⟨-, rfl⟩ | ⟨-, rfl⟩⟩ := busAccess_next h
  · obtain e | e | e | e | e | e | ⟨-, e⟩ | ⟨-, e⟩ := regWrite_cases r a.wdata s <;> rw [e] <;> exact ⟨rfl, rfl⟩
  · exact ⟨rfl, rfl⟩

/-- A step that changes the results is a reset, or the engine's turn with a command that may write them. -/
theorem step_results (h : step s = .next t) :
    s.SameResults t ∨ s.ResetNext ∨
      (s.EngineNext ∧ ∃ l i, s.pending = .command l ∧ decode l.word = .ok i ∧ MayWriteResults i s t) := by
  obtain ⟨hin, h⟩ | ⟨e, rest, hin, h⟩ := step_cases h
  · exact (engineTurn_results h).imp_right fun ⟨hrst, hw⟩ => .inr ⟨⟨hrst, .inl hin⟩, hw⟩
  cases e with
  | access a => exact .inl (busAccess_results (s := s.setInputs rest) h)
  | engineTurn =>
    exact (engineTurn_results (s := s.setInputs rest) h).imp_right fun ⟨hrst, hw⟩ =>
      .inr ⟨⟨hrst, .inr ⟨rest, hin⟩⟩, hw⟩
  | rstLow => injection h with h; subst h; exact .inl ⟨rfl, rfl⟩
  | rstHigh =>
    simp only [runEvent] at h
    split at h
    · injection h with h; subst h; exact .inl ⟨rfl, rfl⟩
    · rename_i hrst
      exact .inr (.inl (.inr ⟨Bool.eq_false_iff.mpr hrst, rest, hin⟩))
  | reset => exact .inr (.inl (.inl ⟨rest, hin⟩))

/-- Settles O57: a changed result rules out the first case of `step_results`. -/
theorem resultsChangeOnlyByDrawsAndReset : Obligations.ResultsChangeOnlyByDrawsAndReset := by
  intro s t h hne
  obtain ⟨h0, h1⟩ | hreset | ⟨hengine, l, i, hl, hi, hw⟩ := step_results h
  · exact absurd hne (by simp [h0, h1])
  · exact .inl hreset
  · refine .inr ⟨hengine, l, i, hl, hi, hw.imp_right fun ⟨⟨f, hf⟩, herr⟩ => ⟨?_, herr⟩⟩
    cases f <;> simp only [drawCommands, List.mem_cons] at hf ⊢ <;> tauto

end Sys2Proof.Machine
end

section
/-! The register window and the generator units (10_state.md R26). -/

namespace Sys2Proof.Machine

theorem regRead_setUnits (r : Reg) (s : State) (u : Units) : regRead r (s.setUnits u) = regRead r s := by
  cases r <;> rfl

theorem regWrite_setUnits (r : Reg) (x : W32) (s : State) (u : Units) :
    regWrite r x (s.setUnits u) = (regWrite r x s).setUnits u := by
  cases r with
  | status => exact (apply_ite (State.setUnits · u) (x.getLsbD 1 = true) s.clearError s).symm
  | cmd =>
    exact (apply_ite (State.setUnits · u) (s.busy = true) (s.raise .overrun) (s.latchCommand (s.snapshot x))).symm
  | _ => rfl

theorem regWrite_units (r : Reg) (x : W32) (s : State) : (regWrite r x s).units = s.units := by
  obtain e | e | e | e | e | e | ⟨-, e⟩ | ⟨-, e⟩ := regWrite_cases r x s <;> rw [e] <;> rfl

theorem busAccess_setUnits (a : Access) (s : State) (u : Units) :
    busAccess a (s.setUnits u) = mapNext (·.setUnits u) (busAccess a s) := by
  simp only [busAccess, State.setUnits_rstN, regWrite_setUnits, regRead_setUnits]
  split
  · rfl
  split
  · rfl
  split
  · rfl
  split <;> rfl

theorem busAccess_units {a : Access} {s t : State} (h : busAccess a s = .next t) : t.units = s.units := by
  obtain ⟨-, -, r, -, ⟨-, rfl⟩ | ⟨-, rfl⟩⟩ := busAccess_next h
  · exact regWrite_units r _ s
  · rfl

/-- Settles O17: an access commutes with replacing the units, and keeps them. -/
theorem windowCannotReachTheStores : Obligations.WindowCannotReachTheStores :=
  fun s u a => ⟨busAccess_setUnits a s u, fun _ => busAccess_units⟩

end Sys2Proof.Machine
end

section
/-! The all-zero SR state (10_state.md R50): an SR step on zeros writes zeros. -/

namespace Sys2Proof.Machine

/-- Writing 0 into an all-zero store leaves it all zero. -/
theorem writeWord_replicate_zero {w n : Nat} (k : Nat) :
    writeWord (Vector.replicate n 0#w) k 0#w = Vector.replicate n 0#w :=
  store_ext fun j _ => by simp [readWord_writeWord]

/-- The four taps are 0, so both written words are. -/
theorem srStep_of_zero {u : SrUnit} (h : u.v = Vector.replicate 16 0#32) :
    srStep u = (0#32, { v := Vector.replicate 16 0#32, idx := Fin.ofNat 16 ((u.idx.val + 15) % 16) }) := by
  simp [srStep, h, writeWord_replicate_zero]

theorem srDraw_of_zero (srtemp : Bool) {u : SrUnit} (h : u.v = Vector.replicate 16 0#32) :
    srDraw srtemp u = (0#32, { v := Vector.replicate 16 0#32, idx := Fin.ofNat 16 ((u.idx.val + 15) % 16) }) := by
  simp [srDraw, srStep_of_zero h]

theorem srAfter_succ (n : Nat) (u : SrUnit) : srAfter (n + 1) u = (srStep (srAfter n u)).2 :=
  Function.iterate_succ_apply' _ n u

theorem srAfter_v_of_zero {u : SrUnit} (h : u.v = Vector.replicate 16 0#32) (n : Nat) :
    (srAfter n u).v = Vector.replicate 16 0#32 := by
  induction n with
  | zero => exact h
  | succ n ih => rw [srAfter_succ, srStep_of_zero ih]

/-- The cursor moves one position down per draw (10_state.md R23). -/
theorem srAfter_idx (n : Nat) (u : SrUnit) : (srAfter n u).idx.val = (u.idx.val + 15 * n) % 16 := by
  induction n with
  | zero => exact (Nat.mod_eq_of_lt u.idx.isLt).symm
  | succ n ih => simp only [srAfter_succ, srStep_idx, Fin.val_ofNat, ih]; omega

/-- Settles O34, the first part by induction on the number of draws. -/
theorem allZeroSrStateIsAFixedPoint : Obligations.AllZeroSrStateIsAFixedPoint := by
  refine ⟨fun u h n tmp => ?_, fun s h => ⟨Fin.ofNat 16 ((s.units.sr.idx.val + 15) % 16), ?_, ?_⟩⟩
  · have hz := srAfter_v_of_zero h n
    exact ⟨hz, by rw [srDraw_of_zero tmp hz], srAfter_idx n u⟩
  · change execNextWord .sr s = _
    rw [execNextWord, draw_sr, srDraw_of_zero _ h]
    rfl
  · simp

end Sys2Proof.Machine
end

section
/-! The STATUS and THRESH registers (10_state.md R36, R37), and the engine step of an illegal word. -/

namespace Sys2Proof

/-- A word with reserved bits 0 is below 2^9 (30_encoding.md R91). -/
theorem toNat_lt_of_reservedBits {c : W32} (h : c.extractLsb' 9 23 = 0#23) : c.toNat < 2 ^ 9 := by
  have hnat := congrArg BitVec.toNat h
  simp only [BitVec.extractLsb'_toNat, BitVec.toNat_ofNat, Nat.shiftRight_eq_div_pow] at hnat
  omega

/-- OPC is the word modulo 2^8 (30_encoding.md R91). -/
theorem opcode_toNat (c : W32) : (c.extractLsb' 0 8).toNat = c.toNat % 256 := by
  simp

/-- FAM = 0 bounds the low nine bits (30_encoding.md R91). -/
theorem mod_lt_of_famBit {c : W32} (h : c.getLsbD 8 = false) : c.toNat % 512 < 256 := by
  rw [← BitVec.testBit_toNat, Nat.testBit_eq_decide_div_mod_eq, decide_eq_false_iff_not] at h
  omega

/-- An accepted opcode is one of R93, and FAM = 0 on the four commands without a family. -/
theorem decodeOpcode_ok {c : W32} {i : Instr} (h : decodeOpcode c = .ok i) :
    (c.toNat % 256 ≤ 0x06 ∨ c.toNat % 256 = 0x0F) ∧
    (c.toNat % 256 ≤ 0x02 ∨ c.toNat % 256 = 0x0F → c.toNat % 512 < 256) := by
  have hfam : ∀ j, familyless c j = .ok i → c.toNat % 512 < 256 := fun j hj =>
    mod_lt_of_famBit (familyless_ok hj).1
  unfold decodeOpcode at h
  split at h <;> rename_i hop <;> rw [opcode_toNat] at hop
  case h_1 | h_2 | h_3 | h_8 => exact ⟨by omega, fun _ => hfam _ h⟩
  case h_9 => cases h
  all_goals exact ⟨by omega, by omega⟩

/-- No accepted word is on the list of R99. -/
theorem decode_error_of_illegalWord {c : W32} (h : Machine.IllegalWord c) : ∃ e, decode c = .error e := by
  cases hd : decode c with
  | error e => exact ⟨e, rfl⟩
  | ok i =>
    obtain ⟨hrsv, hop⟩ := decode_ok hd
    have hlt := toNat_lt_of_reservedBits hrsv
    have hmap := decodeOpcode_ok hop
    unfold Machine.IllegalWord at h
    omega

end Sys2Proof

namespace Sys2Proof.Machine

/-- A latched illegal word completes with ILLEGAL_CMD and LASTDRAWS = 0 (60_exceptions.md R202). -/
theorem engineStep_of_illegalWord {s : State} {l : Latch} (hp : s.pending = .command l) (hl : IllegalWord l.word) :
    engineStep s = .next ((s.setLastDraws 0).raise .illegalCmd).complete := by
  obtain ⟨e, he⟩ := decode_error_of_illegalWord hl
  simp only [engineStep, hp, runWord, he, completeOutcome]

theorem regWrite_status_of_set {x : W32} (h : x.getLsbD 1 = true) (s : State) :
    regWrite .status x s = s.clearError := if_pos h

theorem regWrite_status_of_unset {x : W32} (h : x.getLsbD 1 = false) (s : State) : regWrite .status x s = s :=
  if_neg (Bool.eq_false_iff.mp h)

theorem regWrite_status_pending (x : W32) (s : State) : (regWrite .status x s).pending = s.pending := by
  cases h : x.getLsbD 1
  · rw [regWrite_status_of_unset h]
  · rw [regWrite_status_of_set h]; rfl

/-- Settles O14, with the pending illegal word kept by the write and recorded by the engine step. -/
theorem statusWriteClearsTheErrorOnly : Obligations.StatusWriteClearsTheErrorOnly := by
  refine fun s x => ⟨fun h => regWrite_status_of_set h s, fun h => regWrite_status_of_unset h s, fun l hp hl => ?_⟩
  exact ⟨_, engineStep_of_illegalWord ((regWrite_status_pending x s).trans hp) hl, rfl, rfl⟩

theorem legalThresh_of_le {w : W32} (h : w.toNat ≤ 0x10000) : legalThresh w = w := if_pos h

theorem legalThresh_of_gt {w : W32} (h : 0x10000 < w.toNat) : legalThresh w = 0x00010000#32 :=
  if_neg (Nat.not_le.mpr h)

/-- Settles O16, by the two cases of the legalised value. -/
theorem thresholdWritesAreLegalised : Obligations.ThresholdWritesAreLegalised := by
  refine ⟨rfl, fun s w => ⟨fun h => ?_, fun h => ?_, rfl⟩⟩
  · change s.setThresh (legalThresh w) = s.setThresh w
    rw [legalThresh_of_le h]
  · change s.setThresh (legalThresh w) = s.setThresh 0x00010000#32
    rw [legalThresh_of_gt h]

end Sys2Proof.Machine
end

section
/-! The register window at step level (20_memory.md R62-R64): what a read, a write and an unsupported access do. -/

namespace Sys2Proof.Machine

variable {s : State} {rest : List Event}

/-- The registers start at the aligned offsets of the window (10_state.md R30). -/
theorem regAt_some {off : Nat} {r : Reg} (h : regAt off = some r) : off < 64 ∧ off % 4 = 0 := by
  unfold regAt at h
  split at h
  case h_17 => cases h
  all_goals decide

theorem inWindow_of_bounds {addr : Nat} (hlo : Config.base ≤ addr) (hhi : addr < Config.base + 64) :
    inWindow addr = true := by
  simp [inWindow, Config.windowBytes, hlo, hhi]

/-- An access that names a register is a 32-bit access with all byte enables set. -/
theorem accessReg_some {a : Access} {r : Reg} (h : accessReg a = some r) :
    a.size = .word ∧ a.byteEnable = 0xF#4 ∧ regAt (a.addr - Config.base) = some r := by
  unfold accessReg at h
  split at h
  · obtain ⟨hsize, hlanes⟩ := ‹a.size = .word ∧ a.byteEnable = 0xF#4›
    exact ⟨hsize, hlanes, h⟩
  · cases h

/-- BASE is a multiple of 64 (20_memory.md R61), so in the window the address is aligned as its offset is. -/
theorem accessReg_of_unsupported {a : Access} (hlo : Config.base ≤ a.addr)
    (h : a.size ≠ .word ∨ a.byteEnable ≠ 0xF#4 ∨ a.addr % 4 ≠ 0) : accessReg a = none := by
  refine Option.eq_none_iff_forall_ne_some.mpr fun r hr => ?_
  obtain ⟨hsize, hlanes, hreg⟩ := accessReg_some hr
  have halign := (regAt_some hreg).2
  have hbase : Config.base = 64 * Config.windowIndex := rfl
  obtain hne | hne | hne := h
  · exact hne hsize
  · exact hne hlanes
  · omega

theorem step_access {a : Access} (hin : s.inputs = .access a :: rest) : step s = busAccess a (s.setInputs rest) := by
  simp only [step, stepOnce, hin, runEvent]

theorem accessReg_wordAccess (off : Nat) (write : Bool) (x : W32) : accessReg (wordAccess off write x) = regAt off := by
  simp [accessReg, wordAccess]

/-- A supported access at a register's offset is that register's RegWrite or RegRead. -/
theorem busAccess_wordAccess {off : Nat} {r : Reg} (hrst : s.rstN = true) (hr : regAt off = some r) (write : Bool)
    (x : W32) : busAccess (wordAccess off write x) s =
      if write then .next (regWrite r x s) else .next (s.setRdata (regRead r s)) := by
  have hwin : inWindow (wordAccess off write x).addr = true := inWindow_base_add (regAt_some hr).1
  simp only [busAccess, hrst, hwin, accessReg_wordAccess, hr]
  rfl

theorem regRead_setInputs (r : Reg) (s : State) (es : List Event) : regRead r (s.setInputs es) = regRead r s := by
  cases r <;> rfl

theorem step_readAccess {off : Nat} {r : Reg} (hrst : s.rstN = true) (hin : s.inputs = .access (readAccess off) :: rest)
    (hr : regAt off = some r) : step s = .next ((s.setInputs rest).setRdata (regRead r s)) := by
  rw [step_access hin, readAccess, busAccess_wordAccess (s := s.setInputs rest) hrst hr, regRead_setInputs]
  rfl

theorem step_writeAccess {off : Nat} {x : W32} {r : Reg} (hrst : s.rstN = true)
    (hin : s.inputs = .access (writeAccess off x) :: rest) (hr : regAt off = some r) :
    step s = .next (regWrite r x (s.setInputs rest)) := by
  rw [step_access hin, writeAccess, busAccess_wordAccess (s := s.setInputs rest) hrst hr]
  rfl

/-- CTRL reads SRTEMP as the number 1 or 0 (10_state.md R34). -/
theorem State.ctrlWord_eq_ite (s : State) : s.ctrlWord = if s.srtemp then 1#32 else 0#32 := by
  cases h : s.srtemp <;> simp [State.ctrlWord, h]

theorem regWrite_cmd_of_idle (h : s.busy = false) (c : W32) :
    regWrite .cmd c s = s.latchCommand (s.snapshot c) := if_neg (Bool.eq_false_iff.mp h)

theorem regWrite_cmd_of_busy (h : s.busy = true) (c : W32) : regWrite .cmd c s = s.raise .overrun := if_pos h

/-- Settles O9: each row of the table is a register's offset with its RegRead value. -/
theorem readsAnswerTheRegisterOnly : Obligations.ReadsAnswerTheRegisterOnly := by
  intro s rest p hrst hp hin
  obtain ⟨r, hr, hval⟩ : ∃ r, regAt p.1 = some r ∧ regRead r s = p.2 := by
    rw [← s.ctrlWord_eq_ite, BitVec.ofNat_toNat] at hp
    simp only [List.mem_cons, List.not_mem_nil, or_false] at hp
    rcases hp with rfl | rfl | rfl | rfl | rfl | rfl | rfl | rfl | rfl | rfl | rfl | rfl | rfl | rfl | rfl | rfl <;>
      exact ⟨_, rfl, rfl⟩
  rw [step_readAccess hrst hin hr, hval]
  rfl

/-- Settles O10, clause by clause: the register at the offset, and the case of its RegWrite. -/
theorem writesTakeTheirEffectByOffset : Obligations.WritesTakeTheirEffectByOffset := by
  intro s rest off x hrst hin
  have hstep : ∀ r, regAt off = some r → step s = .next (regWrite r x (s.setInputs rest)) :=
    fun _ => step_writeAccess hrst hin
  refine ⟨?ctrl, ?statusSet, ?statusUnset, ?threshLegal, ?threshCapped, ?cmdIdle, ?cmdBusy, ?arg0, ?arg1, ?noEffect⟩
  case ctrl => rintro rfl; exact hstep .ctrl rfl
  case statusSet => rintro rfl hx; rw [hstep .status rfl, regWrite_status_of_set hx]; rfl
  case statusUnset => rintro rfl hx; rw [hstep .status rfl, regWrite_status_of_unset hx]; rfl
  case threshLegal => rintro rfl hx; rw [hstep .thresh rfl, regWrite, legalThresh_of_le hx]; rfl
  case threshCapped => rintro rfl hx; rw [hstep .thresh rfl, regWrite, legalThresh_of_gt hx]; rfl
  case cmdIdle => rintro rfl hb; rw [hstep .cmd rfl, regWrite_cmd_of_idle (s := s.setInputs rest) hb]; rfl
  case cmdBusy => rintro rfl hb; rw [hstep .cmd rfl, regWrite_cmd_of_busy (s := s.setInputs rest) hb]; rfl
  case arg0 => rintro rfl; exact hstep .arg0 rfl
  case arg1 => rintro rfl; exact hstep .arg1 rfl
  case noEffect =>
    intro hoff
    obtain ⟨r, hr, hkeep⟩ : ∃ r, regAt off = some r ∧ ∀ t, regWrite r x t = t := by
      simp only [List.mem_cons, List.not_mem_nil, or_false] at hoff
      rcases hoff with rfl | rfl | rfl | rfl | rfl | rfl | rfl | rfl | rfl | rfl <;> exact ⟨_, rfl, fun _ => rfl⟩
    rw [hstep r hr, hkeep]
    rfl

/-- Settles O11: inside the window an unsupported access names no register. -/
theorem unsupportedAccessesAreRefused : Obligations.UnsupportedAccessesAreRefused := by
  intro s a rest hrst hin hlo hhi h
  rw [step_access hin]
  simp [busAccess, hrst, inWindow_of_bounds hlo hhi, accessReg_of_unsupported hlo h]

end Sys2Proof.Machine
end

section
/-! The three legality checks of 30_encoding.md R92 by arithmetic on the word, and the illegal words of R99 by them. -/

namespace Sys2Proof

/-- RSV = 0 bounds the word (30_encoding.md R91). -/
theorem reservedBits_eq_zero_iff (c : W32) : c.extractLsb' 9 23 = 0#23 ↔ c.toNat < 2 ^ 9 := by
  refine ⟨toNat_lt_of_reservedBits, fun h => BitVec.eq_of_toNat_eq ?_⟩
  simp only [BitVec.extractLsb'_toNat, BitVec.toNat_ofNat, Nat.shiftRight_eq_div_pow]
  omega

/-- FAM is bit 8: it tells the two halves of the low nine bits apart (30_encoding.md R91). -/
theorem famBit_eq_true_iff (c : W32) : c.getLsbD 8 = true ↔ 256 ≤ c.toNat % 512 := by
  rw [← BitVec.testBit_toNat, Nat.testBit_eq_decide_div_mod_eq, decide_eq_true_iff]
  omega

theorem opcode_eq_iff (c : W32) (op : BitVec 8) : c.extractLsb' 0 8 = op ↔ c.toNat % 256 = op.toNat := by
  rw [← BitVec.toNat_inj, opcode_toNat]

theorem reservedBitsZero_iff (c : W32) : reservedBitsZero c = true ↔ c.toNat < 2 ^ 9 := by
  rw [reservedBitsZero, beq_iff_eq, reservedBits_eq_zero_iff]

theorem opcodeDefined_iff (c : W32) :
    opcodeDefined c = true ↔ c.toNat % 256 ≤ 0x06 ∨ c.toNat % 256 = 0x0F := by
  simp only [opcodeDefined, List.contains_iff_mem, List.mem_cons, List.not_mem_nil, opcode_eq_iff, BitVec.reduceToNat,
    or_false]
  omega

theorem familyAllowed_iff (c : W32) :
    familyAllowed c = true ↔ (c.toNat % 256 ≤ 0x02 ∨ c.toNat % 256 = 0x0F → c.toNat % 512 < 256) := by
  simp only [familyAllowed, Bool.or_eq_true, Bool.not_eq_true', ← Bool.not_eq_true, List.contains_iff_mem,
    List.mem_cons, List.not_mem_nil, opcode_eq_iff, BitVec.reduceToNat, famBit_eq_true_iff, or_false]
  omega

theorem illegalWord_iff_not_legalWord (c : W32) : Machine.IllegalWord c ↔ legalWord c = false := by
  rw [← Bool.not_eq_true]
  simp only [legalWord, Bool.and_eq_true, reservedBitsZero_iff, opcodeDefined_iff, familyAllowed_iff,
    Machine.IllegalWord]
  omega

theorem familyless_error {c : W32} {i : Instr} {e : Reject} (h : familyless c i = .error e) :
    256 ≤ c.toNat % 512 := by
  unfold familyless at h
  split at h
  · exact (famBit_eq_true_iff c).mp ‹_›
  · cases h

/-- The opcode map rejects an opcode outside R93, or FAM = 1 on a command without family. -/
theorem illegalWord_of_decodeOpcode_error {c : W32} {e : Reject} (h : decodeOpcode c = .error e) :
    Machine.IllegalWord c := by
  unfold Machine.IllegalWord
  unfold decodeOpcode at h
  split at h <;> simp only [opcode_toNat, imp_false] at *
  case h_1 | h_2 | h_3 | h_8 =>
    have hfam := familyless_error h
    omega
  case h_9 => omega
  all_goals cases h

/-- Every rejected word is on the list of R99. -/
theorem illegalWord_of_decode_error {c : W32} {e : Reject} (h : decode c = .error e) : Machine.IllegalWord c := by
  unfold decode at h
  split at h
  · exact illegalWord_of_decodeOpcode_error h
  · rename_i hrsv
    rw [reservedBits_eq_zero_iff, not_lt] at hrsv
    exact .inl hrsv

end Sys2Proof

namespace Sys2Proof.Machine

/-- Settles O2: the list of R99 is what `decode` rejects and what the three checks of `legalWord` reject. -/
theorem illegalWordsCompleteWithIllegalCmd : Obligations.IllegalWordsCompleteWithIllegalCmd :=
  ⟨fun _ => ⟨decode_error_of_illegalWord, fun ⟨_, h⟩ => illegalWord_of_decode_error h⟩,
    illegalWord_iff_not_legalWord, fun _ _ hp hl => engineStep_of_illegalWord hp hl⟩

end Sys2Proof.Machine
end

section
/-! A family command and the other family's unit (30_encoding.md R94): every operation of family f commutes with
replacing the other unit. -/

namespace Sys2Proof.Machine

/-- The unit of family f from u, the other family's unit from o. -/
def Units.withOther (u : Units) (f : Fam) (o : Units) : Units :=
  match f with
  | .sr => { sr := u.sr, tf := o.tf }
  | .tf => { sr := o.sr, tf := u.tf }

/-- The state with o's unit in the place of the unit that is not of family f. -/
def State.withOther (s : State) (f : Fam) (o : Units) : State := s.setUnits (s.units.withOther f o)

/-- The commands that carry family f (30_encoding.md R93). -/
def familyCommands (f : Fam) : List Instr := .seedApply f :: drawCommands f

section WithOther

variable (f : Fam) (o : Units)

theorem Units.seed_withOther (u : Units) (key : List W64) :
    (u.withOther f o).seed f key = (u.seed f key).withOther f o := by
  cases f <;> rfl

theorem draw_withOther (srtemp : Bool) (u : Units) :
    draw f srtemp (u.withOther f o) = ((draw f srtemp u).1, (draw f srtemp u).2.withOther f o) := by
  cases f <;> rfl

theorem sampleWord_withOther (srtemp : Bool) (u : Units) :
    sampleWord f srtemp (u.withOther f o) =
      ((sampleWord f srtemp u).1, (sampleWord f srtemp u).2.withOther f o) := by
  simp only [sampleWord, draw_withOther]

theorem sampleLoop_withOther (srtemp : Bool) (accept : W32 → Option Nat) (left n : Nat) (u : Units) :
    sampleLoop f srtemp accept left n (u.withOther f o) =
      ((sampleLoop f srtemp accept left n u).1.withOther f o, (sampleLoop f srtemp accept left n u).2) := by
  induction left generalizing n u with
  | zero => rfl
  | succ left ih =>
    simp only [sampleLoop, sampleWord_withOther]
    split
    · rfl
    · exact ih _ _

theorem bounded_withOther (cap : Nat) (srtemp : Bool) (b t : Nat) (u : Units) :
    bounded cap f srtemp b t (u.withOther f o) =
      ((bounded cap f srtemp b t u).1.withOther f o, (bounded cap f srtemp b t u).2) :=
  sampleLoop_withOther f o srtemp _ cap 0 u

@[simp] theorem State.withOther_units (s : State) : (s.withOther f o).units = s.units.withOther f o := rfl

@[simp] theorem State.withOther_seedKey (s : State) : (s.withOther f o).seedKey = s.seedKey := rfl

@[simp] theorem State.withOther_operands (s : State) : (s.withOther f o).operands = s.operands := rfl

theorem runSample_withOther (cap b : Nat) (place : Nat → W32 × W32) (s : State) :
    runSample cap f b place (s.withOther f o) = (runSample cap f b place s).withOther f o := by
  have hb := bounded_withOther f o cap s.operands.srtemp b s.operands.thresh.toNat s.units
  simp only [runSample, State.withOther_operands, State.withOther_units, hb]
  generalize bounded cap f s.operands.srtemp b s.operands.thresh.toNat s.units = r
  obtain ⟨u, _ | ⟨v, n⟩⟩ := r <;> rfl

theorem execSeedApply_withOther (s : State) :
    execSeedApply f (s.withOther f o) = mapNext (·.withOther f o) (execSeedApply f s) := by
  simp only [execSeedApply, State.withOther_units, State.withOther_seedKey, Units.seed_withOther]
  rfl

theorem execNextWord_withOther (s : State) :
    execNextWord f (s.withOther f o) = mapNext (·.withOther f o) (execNextWord f s) := by
  simp only [execNextWord, State.withOther_operands, State.withOther_units, draw_withOther]
  rfl

/-- The operand check reads no unit. -/
theorem execNextBounded_withOther (s : State) :
    execNextBounded f (s.withOther f o) = mapNext (·.withOther f o) (execNextBounded f s) := by
  simp only [execNextBounded, State.withOther_operands, runSample_withOther]
  split <;> rfl

theorem execNextBoundedPair_withOther (s : State) :
    execNextBoundedPair f (s.withOther f o) = mapNext (·.withOther f o) (execNextBoundedPair f s) := by
  simp only [execNextBoundedPair, State.withOther_operands, runSample_withOther]
  split <;> rfl

theorem exec_withOther {i : Instr} (hi : i ∈ familyCommands f) (s : State) :
    exec i (s.withOther f o) = mapNext (·.withOther f o) (exec i s) := by
  simp only [familyCommands, drawCommands, List.mem_cons, List.not_mem_nil, or_false] at hi
  obtain rfl | rfl | rfl | rfl := hi
  · exact execSeedApply_withOther f o s
  · exact execNextWord_withOther f o s
  · exact execNextBounded_withOther f o s
  · exact execNextBoundedPair_withOther f o s

end WithOther

/-- Settles O40: the two halves are `exec_withOther` for the two families. -/
theorem commandsTouchOnlyTheirFamily : Obligations.CommandsTouchOnlyTheirFamily :=
  ⟨fun _ s tf hi => exec_withOther .sr ⟨s.units.sr, tf⟩ hi s,
    fun _ s sr hi => exec_withOther .tf ⟨sr, s.units.tf⟩ hi s⟩

end Sys2Proof.Machine
end

section
/-! Illegal words by their opcode and reserved bits; SEED_CLEAR and SEED_PUSH (40_seeding.md R110, R111). -/

namespace Sys2Proof

/-- An opcode without family has one legal word: the opcode itself, all other bits 0 (30_encoding.md R92, R93). -/
theorem decode_error_of_familyless {c : W32} {op : BitVec 8} (hop : op.toNat ≤ 0x02 ∨ op.toNat = 0x0F)
    (h : c.extractLsb' 0 8 = op) (hne : c ≠ op.setWidth 32) : ∃ e, decode c = .error e := by
  rw [opcode_eq_iff] at h
  rw [ne_eq, ← BitVec.toNat_inj, BitVec.toNat_setWidth] at hne
  apply decode_error_of_illegalWord
  unfold Machine.IllegalWord
  omega

theorem decode_error_of_reservedBits {c : W32} (h : c.extractLsb' 9 23 ≠ 0#23) : ∃ e, decode c = .error e := by
  rw [ne_eq, reservedBits_eq_zero_iff, not_lt] at h
  exact decode_error_of_illegalWord (.inl h)

end Sys2Proof

namespace Sys2Proof.Machine

/-- Settles O25: one legal word, and the command's effect. -/
theorem seedClearEmptiesTheBuffer : Obligations.SeedClearEmptiesTheBuffer :=
  ⟨by decide, fun _ => decode_error_of_familyless (by decide), fun _ => ⟨0, rfl, rfl⟩⟩

/-- While a command is latched, it is the snapshot in use (30_encoding.md R95). -/
theorem State.operands_of_pending {s : State} {l : Latch} (h : s.pending = .command l) : s.operands = l := by
  simp [State.operands, h]

/-- ARG1 is the upper half of the seed word and ARG0 the lower (30_encoding.md R97). -/
theorem Latch.seedWord_toNat (l : Latch) : l.seedWord.toNat = l.arg1.toNat * 2 ^ 32 + l.arg0.toNat := by
  rw [Latch.seedWord, BitVec.toNat_append, ← Nat.shiftLeft_add_eq_or_of_lt l.arg0.isLt, Nat.shiftLeft_eq]

theorem State.pushSeed_of_lt {s : State} (h : s.seedLen.val < 312) (w : W64) :
    s.pushSeed w =
      { s with seedBuf := writeWord s.seedBuf s.seedLen.val w, seedLen := Fin.ofNat 313 (s.seedLen.val + 1) } :=
  if_pos h

theorem State.pushSeed_of_full {s : State} (h : s.seedLen.val = 312) (w : W64) :
    s.pushSeed w = { s with seedTrunc := true } :=
  if_neg (by omega)

/-- Settles O26: one legal word, and the two cases of the push. -/
theorem seedPushAppendsOrTruncates : Obligations.SeedPushAppendsOrTruncates := by
  refine ⟨by decide, fun _ => decode_error_of_familyless (by decide), fun s l hl => ⟨fun hlt => ?_, fun hfull => ?_⟩⟩
  · refine ⟨writeWord s.seedBuf s.seedLen.val l.seedWord, Fin.ofNat 313 (s.seedLen.val + 1), ?_, ?_, ?_, fun k hk => ?_⟩
    · rw [exec, execSeedPush, State.operands_of_pending hl, State.pushSeed_of_lt hlt]
      rfl
    · exact Nat.mod_eq_of_lt (by omega)
    · rw [readWord_writeWord_same _ _ hlt, l.seedWord_toNat]
    · exact readWord_writeWord_ne _ _ hk.symm
  · rw [exec, execSeedPush, State.pushSeed_of_full hfull]
    rfl

end Sys2Proof.Machine
end

section
/-! The SR seeding FSM (40_seeding.md R114): COPY fills the leading words, and EXTEND each later word from the word one
lag before it. -/

namespace Sys2Proof.Machine

/-- EXTEND's word i from the word c one lag before it (40_seeding.md R114). -/
def srExtendWord (i : Nat) (c : W32) : W32 := 1812433253#32 * (c ^^^ c.sshiftRight 30) + BitVec.ofNat 32 i

/-- From an all-zero prefix the extended word is its index (40_seeding.md R115 (c)). -/
@[simp] theorem srExtendWord_zero (i : Nat) : srExtendWord i 0#32 = BitVec.ofNat 32 i := by
  simp [srExtendWord]

theorem srExtendAt_eq (lag i : Nat) (v : Vector W32 16) :
    srExtendAt lag i v = writeWord v i (srExtendWord i (readWord v (i - lag))) := rfl

theorem low32_eq_setWidth (x : W64) : low32 x = x.setWidth 32 :=
  (BitVec.setWidth_eq_extractLsb' (by decide)).symm

/-- COPY (40_seeding.md R114): the store filled from word 0 up. -/
theorem readWord_fill {w n : Nat} (f : Nat → BitVec w) (a : Vector (BitVec w) n) {m j : Nat} (hm : m ≤ n) (hj : j < m) :
    readWord (loopFrom (fun k v => writeWord v k (f k)) 0 m a) j = f j := by
  induction m with
  | zero => omega
  | succ m ih =>
    rw [loopFrom_succ_last, Nat.zero_add, readWord_writeWord]
    split
    next h => rw [h.1]
    next h => exact ih (by omega) (by omega)

/-- What stands in V before EXTEND's word i: the words below the lag are those of v0, and each later word below i is
extended from the word one lag before it. -/
def SrExtended (lag : Nat) (v0 : Vector W32 16) (i : Nat) (v : Vector W32 16) : Prop :=
  (∀ j < lag, readWord v j = readWord v0 j) ∧
    ∀ k, lag ≤ k → k < i → readWord v k = srExtendWord k (readWord v (k - lag))

theorem srExtended_srExtendAt {lag i : Nat} {v0 v : Vector W32 16} (hlag : 0 < lag) (hi : lag ≤ i) (hlt : i < 16)
    (h : SrExtended lag v0 i v) : SrExtended lag v0 (i + 1) (srExtendAt lag i v) := by
  obtain ⟨hcopy, hext⟩ := h
  have hother : ∀ j, j ≠ i → readWord (srExtendAt lag i v) j = readWord v j := fun j hj =>
    readWord_writeWord_ne _ _ hj.symm
  refine ⟨fun j hj => (hother j (by omega)).trans (hcopy j hj), fun k hk hki => ?_⟩
  rw [hother (k - lag) (by omega)]
  obtain rfl | hne := eq_or_ne k i
  · exact readWord_writeWord_same _ _ hlt
  · rw [hother k hne, hext k hk (by omega)]

/-- EXTEND as a whole, over the words from the lag on. -/
theorem srExtended_loop {lag : Nat} (v0 : Vector W32 16) (hlag : 0 < lag) (hle : lag ≤ 16) :
    SrExtended lag v0 16 (loopFrom (srExtendAt lag) lag (16 - lag) v0) := by
  have h := loopFrom_induct (srExtendAt lag) (SrExtended lag v0) lag (16 - lag) v0
    ⟨fun _ _ => rfl, fun k hk hki => by omega⟩
    fun i v hi hlt hv => srExtended_srExtendAt hlag hi (by omega) hv
  rwa [Nat.add_sub_cancel' hle] at h

/-- V after COPY (40_seeding.md R114). -/
def srCopied (key : List W64) : Vector W32 16 :=
  loopFrom (fun j v => writeWord v j (low32 (keyWord key j))) 0 (min key.length 16) (Vector.replicate 16 0#32)

variable {key : List W64}

theorem seedSR_srExtended (hne : key ≠ []) : SrExtended (min key.length 16) (srCopied key) 16 (seedSR key).v := by
  have hpos := List.length_pos_of_ne_nil hne
  exact srExtended_loop (srCopied key) (by omega) (by omega)

/-- The leading words of V are the low halves of the leading key words. -/
theorem seedSR_copied (hne : key ≠ []) {j : Nat} (hj : j < 16) (hlen : j < key.length) :
    readWord (seedSR key).v j = (keyWord key j).setWidth 32 := by
  obtain ⟨hcopy, -⟩ := seedSR_srExtended hne
  rw [hcopy j (by omega), srCopied, readWord_fill _ _ (by omega) (by omega), low32_eq_setWidth]

/-- Each later word is extended from the word one key length before it. -/
theorem seedSR_extended (hne : key ≠ []) {i : Nat} (hi : i < 16) (hlen : key.length ≤ i) :
    readWord (seedSR key).v i = srExtendWord i (readWord (seedSR key).v (i - key.length)) := by
  obtain ⟨-, hext⟩ := seedSR_srExtended hne
  rw [hext i (by omega) hi, Nat.min_eq_left (by omega)]

/-- Settles O28: the COPY and the EXTEND words, and the cursor. -/
theorem seedSrMeetsItsRecurrence : Obligations.SeedSrMeetsItsRecurrence :=
  fun _ hne => ⟨rfl, fun _ => seedSR_copied hne, fun _ => seedSR_extended hne⟩

/-- A key of 16 or more words fills V with its leading low halves (40_seeding.md R115 (a)). -/
theorem seedSR_verbatim (hlen : 16 ≤ key.length) {j : Nat} (hj : j < 16) :
    readWord (seedSR key).v j = (keyWord key j).setWidth 32 :=
  seedSR_copied (List.ne_nil_of_length_pos (by omega)) hj (by omega)

theorem seedSR_v_of_zero (hlen : 16 ≤ key.length) (hzero : ∀ j < 16, (keyWord key j).setWidth 32 = 0#32) :
    (seedSR key).v = Vector.replicate 16 0#32 :=
  store_ext fun j hj => by rw [seedSR_verbatim hlen hj, hzero j hj, readWord_replicate_zero]

/-- Below 16 words, an all-zero prefix makes the first extended word its index (40_seeding.md R115 (c)). -/
theorem seedSR_first_extended (hne : key ≠ []) (hlt : key.length < 16)
    (hzero : ∀ j < key.length, (keyWord key j).setWidth 32 = 0#32) :
    readWord (seedSR key).v key.length = BitVec.ofNat 32 key.length := by
  have hpos := List.length_pos_of_ne_nil hne
  rw [seedSR_extended hne hlt le_rfl, Nat.sub_self, seedSR_copied hne (by omega) hpos, hzero 0 hpos, srExtendWord_zero]

/-- A short key is never extended to the all-zero state: its first words would be 0, and then the next is not. -/
theorem seedSR_v_ne_zero (hne : key ≠ []) (hlt : key.length < 16) : (seedSR key).v ≠ Vector.replicate 16 0#32 := by
  intro h
  have hpos := List.length_pos_of_ne_nil hne
  have hword := seedSR_first_extended hne hlt fun j hj => by
    rw [← seedSR_copied hne (by omega) hj, h, readWord_replicate_zero]
  rw [h, readWord_replicate_zero, ← BitVec.toNat_inj, BitVec.toNat_ofNat, BitVec.toNat_ofNat] at hword
  omega

/-- SeedSR reads the length of the key and the low halves of its words only (40_seeding.md R115 (e)). -/
theorem seedSR_congr {key' : List W64} (hlen : key.length = key'.length)
    (hlow : ∀ j, (keyWord key j).setWidth 32 = (keyWord key' j).setWidth 32) : seedSR key = seedSR key' := by
  simp only [seedSR, hlen, low32_eq_setWidth, hlow]

/-- The empty buffer's key is the one zero word (40_seeding.md R113). -/
theorem State.seedKey_of_empty {s : State} (h : s.seedLen.val = 0) : s.seedKey = [0#64] := if_pos h

/-- Settles O29, from the words of V: (b) by the all-zero fixed point, (d) by evaluation on the one zero word. -/
theorem seedSrConsequences : Obligations.SeedSrConsequences := by
  refine ⟨fun _ hlen _ => seedSR_verbatim hlen, fun key hlen hzero => ?_, fun key hpos hlt => ?_, fun s hs => ?_,
    fun _ _ => seedSR_congr⟩
  · have hv := seedSR_v_of_zero hlen hzero
    exact ⟨hv, fun n tmp => by rw [srDraw_of_zero tmp (srAfter_v_of_zero hv n)]⟩
  · have hne := List.ne_nil_of_length_pos hpos
    exact ⟨seedSR_v_ne_zero hne hlt, seedSR_first_extended hne hlt⟩
  · rw [State.seedKey_of_empty hs]
    decide +kernel

end Sys2Proof.Machine
end

section
/-! The TF seeding FSM (40_seeding.md R117): the word each phase leaves at each index. -/

namespace Sys2Proof.Machine

/-- INIT starts from the fixed constant (40_seeding.md R118). -/
theorem tfInit_zero : readWord tfInit 0 = 19650218#64 := by
  obtain ⟨hout, -⟩ := pass_spec initWord 1 311 (writeWord (Vector.replicate 312 0#64) 0 19650218#64) le_rfl (by omega)
  rw [tfInit_eq, hout 0 (.inl (by omega)), readWord_writeWord_same _ _ (by omega)]

theorem tfInit_word {k : Nat} (h1 : 1 ≤ k) (hk : k ≤ 311) :
    readWord tfInit k = 6364136223846793005#64 * fold62 (readWord tfInit (k - 1)) + BitVec.ofNat 64 k := by
  obtain ⟨-, hin⟩ := pass_spec initWord 1 311 (writeWord (Vector.replicate 312 0#64) 0 19650218#64) le_rfl (by omega)
  rw [tfInit_eq]
  exact hin k h1 (by omega)

/-- MT after MIX1's pass over MT[1..311]. -/
def mix1Swept (key : List W64) (a : Vector W64 312) : Vector W64 312 := loopFrom (passAt (mix1Pass key)) 1 311 a

/-- MT after MIX2's pass over MT[2..311]. -/
def mix2Swept (a : Vector W64 312) : Vector W64 312 := loopFrom (passAt mix2Word) 2 310 a

variable (key : List W64) (a : Vector W64 312)

theorem mix1Swept_zero : readWord (mix1Swept key a) 0 = readWord a 0 := by
  obtain ⟨hout, -⟩ := pass_spec (mix1Pass key) 1 311 a le_rfl (by omega)
  exact hout 0 (.inl (by omega))

theorem mix1Swept_word {i : Nat} (h1 : 1 ≤ i) (hi : i ≤ 311) :
    readWord (mix1Swept key a) i =
      mix1Word key ((i - 1) % key.length) (readWord (mix1Swept key a) (i - 1)) (readWord a i) := by
  obtain ⟨-, hin⟩ := pass_spec (mix1Pass key) 1 311 a le_rfl (by omega)
  exact hin i h1 (by omega)

theorem mix2Swept_one : readWord (mix2Swept a) 1 = readWord a 1 := by
  obtain ⟨hout, -⟩ := pass_spec mix2Word 2 310 a (by omega) (by omega)
  exact hout 1 (.inl (by omega))

theorem mix2Swept_word {i : Nat} (h2 : 2 ≤ i) (hi : i ≤ 311) :
    readWord (mix2Swept a) i = mix2Word i (readWord (mix2Swept a) (i - 1)) (readWord a i) := by
  obtain ⟨-, hin⟩ := pass_spec mix2Word 2 310 a (by omega) (by omega)
  exact hin i h2 (by omega)

theorem wrapStore_zero : readWord (wrapStore a) 0 = readWord a 311 := readWord_writeWord_same _ _ (by omega)

theorem wrapStore_ne_zero {i : Nat} (h : i ≠ 0) : readWord (wrapStore a) i = readWord a i :=
  readWord_writeWord_ne _ _ h.symm

/-- Each mixing phase ends with a second visit to word 1, whose left neighbour is the word wrapped from the end. -/
theorem passAt_wrapStore_one (g : Nat → W64 → W64 → W64) :
    readWord (passAt g 1 (wrapStore a)) 1 = g 1 (readWord a 311) (readWord a 1) := by
  rw [passAt, readWord_writeWord_same _ _ (by omega), wrapStore_zero, wrapStore_ne_zero a one_ne_zero]

theorem passAt_wrapStore_ne (g : Nat → W64 → W64 → W64) {i : Nat} (h2 : 2 ≤ i) :
    readWord (passAt g 1 (wrapStore a)) i = readWord a i := by
  rw [passAt, readWord_writeWord_ne _ _ (by omega), wrapStore_ne_zero a (by omega)]

theorem mix1Store_eq : mix1Store key a =
    passAt (fun _ => mix1Word key (311 % key.length)) 1 (wrapStore (mix1Swept key a)) := rfl

theorem mix2Store_eq : mix2Store a = passAt mix2Word 1 (wrapStore (mix2Swept a)) := rfl

variable {key}

/-- The last thing SeedTF does to MT is to set word 0 (40_seeding.md R117, FINAL). -/
theorem seedTF_mt (key : List W64) : ∃ a, (seedTF key).mt = writeWord a 0 0x8000000000000000#64 := by
  unfold seedTF
  exact ⟨_, rfl⟩

/-- Word 0 is the same whatever the key and its length (40_seeding.md R119). -/
theorem seedTF_word_zero (key : List W64) : readWord (seedTF key).mt 0 = 0x8000000000000000#64 := by
  obtain ⟨a, h⟩ := seedTF_mt key
  rw [h, readWord_writeWord_same _ _ (by omega)]

/-- FINAL leaves the other words as MIX2 does. -/
theorem seedTF_word (h0 : 1 ≤ key.length) (h1 : key.length ≤ 312) {i : Nat} (hi : i ≠ 0) :
    readWord (seedTF key).mt i = readWord (mix2Store (mix1Store key tfInit)) i := by
  rw [seedTF_phases key h0 h1, readWord_writeWord_ne _ _ hi.symm]

/-- Settles O30, with the stores after INIT, after MIX1's pass and after MIX2's pass for the three words. -/
theorem seedTfMeetsItsRecurrence : Obligations.SeedTfMeetsItsRecurrence := by
  intro key h0 h1
  refine ⟨readWord tfInit, readWord (mix1Swept key tfInit), readWord (mix2Swept (mix1Store key tfInit)),
    readWord (mix1Swept key tfInit) 311, readWord (mix1Store key tfInit) 1,
    tfInit_zero, fun _ => tfInit_word, mix1Swept_zero key tfInit, fun _ => mix1Swept_word key tfInit, rfl,
    ?mix1End, mix2Swept_one _, fun i h2 hi => ?mix2Pass, seedTF_word_zero key, ?mix2End, fun i h2 _ => ?others, by simp⟩
  case mix1End =>
    rw [mix1Store_eq, passAt_wrapStore_one]
    rfl
  case mix2Pass =>
    rw [mix2Swept_word _ h2 hi, mix1Store_eq key, passAt_wrapStore_ne _ _ h2]
    rfl
  case mix2End =>
    rw [seedTF_word h0 h1 one_ne_zero, mix2Store_eq, passAt_wrapStore_one]
    rfl
  case others => rw [seedTF_word h0 h1 (by omega), mix2Store_eq, passAt_wrapStore_ne _ _ h2]

end Sys2Proof.Machine
end

section
/-! SEED_APPLY (40_seeding.md R112, R113, R119): the key, the family it constructs, and the first TF words of two keys. -/

namespace Sys2Proof.Machine

theorem tfDraw_of_lt {u : TfUnit} (h : u.idx.val < 312) :
    tfDraw u = (temperTF (readWord u.mt u.idx.val), { u with idx := Fin.ofNat 313 (u.idx.val + 1) }) := by
  simp only [tfDraw, tfRefill_of_lt h]

/-- At the end of the array a draw is the draw at word 0 of the twisted store (41_generators.md R137). -/
theorem tfDraw_of_end {u : TfUnit} (h : u.idx.val = 312) : tfDraw u = tfDraw { mt := twist u.mt, idx := 0 } := by
  simp only [tfDraw, tfRefill_of_end h, tfRefill_of_lt (u := { mt := twist u.mt, idx := 0 }) (by simp)]

/-- The first draw after seeding, which twists (41_generators.md R138). -/
theorem tfDraw_seedTF (key : List W64) : tfDraw (seedTF key) =
    (temperTF (readWord (twist (seedTF key).mt) 0), { mt := twist (seedTF key).mt, idx := 1 }) := by
  rw [tfDraw_of_end (by simp), tfDraw_of_lt (by simp)]
  rfl

section FirstWords

variable {key : List W64} (h0 : 0 < key.length) (h1 : key.length ≤ 312)
include h0 h1

theorem tfDraw_seedTF_fst : (tfDraw (seedTF key)).1 = temperTF ((twistList (seedList key)).getD 0 0#64) := by
  rw [tfDraw_seedTF, readWord_twist_seedTF key h0 h1]

/-- The second draw tempers word 1 of the same twisted store. -/
theorem tfDraw_tfDraw_seedTF_fst :
    (tfDraw (tfDraw (seedTF key)).2).1 = temperTF ((twistList (seedList key)).getD 1 0#64) := by
  rw [tfDraw_seedTF, tfDraw_of_lt (by simp), ← readWord_twist_seedTF key h0 h1]
  rfl

end FirstWords

/-- Settles O31: word 0 tells the store from the all-zero one; the empty seed's words by evaluation on lists. -/
theorem seedTfIsFunctional : Obligations.SeedTfIsFunctional := by
  refine ⟨fun key => ⟨seedTF_word_zero key, fun h => ?_⟩, fun s hs => ?_⟩
  · have hword := seedTF_word_zero key
    rw [h, readWord_replicate_zero] at hword
    exact absurd hword (by decide)
  · rw [State.seedKey_of_empty hs, tfDraw_seedTF_fst (by decide) (by decide),
      tfDraw_tfDraw_seedTF_fst (by decide) (by decide)]
    decide +kernel

/-- The first n words of a store as the words 0 to n - 1. -/
theorem take_toList_eq_map_readWord {w m n : Nat} (a : Vector (BitVec w) m) (h : n ≤ m) :
    a.toList.take n = (List.range n).map (readWord a) := by
  apply List.ext_getElem
  · simp [h]
  · intro k hk _
    rw [List.length_take, Vector.length_toList] at hk
    simp [readWord_eq_getElem a (show k < m by omega)]

/-- The seed key by the words of the buffer (40_seeding.md R113). -/
theorem State.seedKey_eq (s : State) :
    s.seedKey = if s.seedLen.val = 0 then [0#64] else (List.range s.seedLen.val).map (readWord s.seedBuf) := by
  rw [State.seedKey, take_toList_eq_map_readWord _ (by omega)]
  rfl

/-- A seed key has 1 to 312 words. -/
theorem State.seedKey_length (s : State) : 1 ≤ s.seedKey.length ∧ s.seedKey.length ≤ 312 := by
  rw [State.seedKey_eq]
  split
  · simp
  · rw [List.length_map, List.length_range]
    omega

/-- Settles O27: the two words, the reference key's first TF word by evaluation on lists, and the effect on the key. -/
theorem seedApplyConstructsOneFamily : Obligations.SeedApplyConstructsOneFamily := by
  refine ⟨by decide, by decide, fun c _ => decode_error_of_reservedBits, ?_, fun s key hkey => ?_⟩
  · rw [tfDraw_seedTF_fst (by decide) (by decide)]
    decide +kernel
  · obtain rfl : key = s.seedKey := hkey.trans s.seedKey_eq.symm
    obtain ⟨hpos, hle⟩ := s.seedKey_length
    exact ⟨hpos, hle, rfl, rfl⟩

end Sys2Proof.Machine
end

section
/-! The SR unit (41_generators.md R131-R133): the words one state advance writes, and the tempering as a bijection. -/

namespace Sys2Proof.Machine

/-- Settles O32: the step's store is two writes to different words, and sixteen draws move the cursor by 15 * 16. -/
theorem srStepWritesTwoWords : Obligations.SrStepWritesTwoWords := by
  intro u i im1 vi vm1 vm2 z0 z1 z2 z3 z4 hi him1 hvi hvm1 hvm2 hz0 hz1 hz2 hz3 hz4
  obtain ⟨hfst, hidx, hv⟩ : (srStep u).1 = z4 ∧ (srStep u).2.idx.val = im1 ∧
      (srStep u).2.v = writeWord (writeWord u.v i z3) im1 z4 := by
    subst_vars
    exact ⟨rfl, by simp, rfl⟩
  have hlt : i < 16 := by omega
  have hne : im1 ≠ i := by omega
  refine ⟨hfst, hidx, ?_, ?_, fun k hk hk1 => ?_, Fin.ext ?_⟩
  · rw [hv, readWord_writeWord_ne _ _ hne, readWord_writeWord_same _ _ hlt]
  · rw [hv, readWord_writeWord_same _ _ (by omega)]
  · rw [hv, readWord_writeWord_ne _ _ hk1.symm, readWord_writeWord_ne _ _ hk.symm]
  · rw [srAfter_idx]
    omega

/-- One shift and mask step of TemperSR (41_generators.md R132). -/
def shiftMaskXor {w : Nat} (k : Nat) (m t : BitVec w) : BitVec w := t ^^^ ((t <<< k) &&& m)

/-- With a shift of at least 1, bit i of the result fixes bit i of t once the bits below i are known. -/
theorem shiftMaskXor_injective {w k : Nat} (hk : 0 < k) (m : BitVec w) : Function.Injective (shiftMaskXor k m) := by
  intro a b h
  refine BitVec.eq_of_getLsbD_eq fun i hi => ?_
  induction i using Nat.strong_induction_on with
  | _ i ih =>
    have hbit := congrArg (BitVec.getLsbD · i) h
    simp only [shiftMaskXor, BitVec.getLsbD_xor, BitVec.getLsbD_and, BitVec.getLsbD_shiftLeft] at hbit
    by_cases hik : i < k
    · simpa [hik] using hbit
    · rwa [ih (i - k) (by omega) (by omega), Bool.xor_left_inj] at hbit

theorem temperSR_eq : temperSR = shiftMaskXor 15 0x9B868000#32 ∘ shiftMaskXor 7 0xE46E1700#32 := rfl

/-- On the finite type of words the injective steps are onto as well. -/
theorem temperSR_bijective : Function.Bijective temperSR := by
  rw [← Finite.injective_iff_bijective, temperSR_eq]
  exact (shiftMaskXor_injective (by decide) _).comp (shiftMaskXor_injective (by decide) _)

/-- Settles O33: SRTEMP picks the output word alone. -/
theorem srDrawTempersWithoutMutating : Obligations.SrDrawTempersWithoutMutating := by
  refine ⟨?_, temperSR_bijective⟩
  rintro u z t rfl rfl
  exact ⟨rfl, rfl, rfl, rfl⟩

end Sys2Proof.Machine
end

section
/-! The TF unit (41_generators.md R135-R138): what the in-place twist reads, one raw draw, and a run of draws. -/

namespace Sys2Proof.Machine

/-- Iteration i reads the old right neighbour, but for i = 311 the new word 0. -/
theorem twistPrefix_read_next (a : Vector W64 312) {i : Nat} (hi : i < 312) :
    readWord (loopFrom twistAt 0 i a) ((i + 1) % 312) =
      if i = 311 then readWord (twist a) 0 else readWord a (i + 1) := by
  rw [twistPrefix_read a i _ hi.le]
  split
  next h => rw [show i = 311 by omega]; rfl
  next h => rw [if_neg (by omega), Nat.mod_eq_of_lt (by omega)]

/-- Iteration i reads the old word i + 156 in the first half, and the new word i - 156 in the second. -/
theorem twistPrefix_read_middle (a : Vector W64 312) {i : Nat} (hi : i < 312) :
    readWord (loopFrom twistAt 0 i a) ((i + 156) % 312) =
      if i < 156 then readWord a (i + 156) else readWord (twist a) (i - 156) := by
  rw [twistPrefix_read a i _ hi.le]
  split
  next h => rw [if_neg (by omega), show (i + 156) % 312 = i - 156 by omega]
  next h => rw [if_pos (by omega), Nat.mod_eq_of_lt (by omega)]

/-- Settles O35, by the two words that iteration i reads beside its own. -/
theorem twistMeetsItsRecurrence : Obligations.TwistMeetsItsRecurrence := by
  rintro a i nxt mid y hi rfl rfl rfl
  rw [twist_word a i hi, twistPrefix_read_next a hi, twistPrefix_read_middle a hi]
  rfl

/-- The refill takes the cursor 312 to 0 and keeps every other (41_generators.md R137). -/
theorem tfRefill_idx (u : TfUnit) : (tfRefill u).idx.val = u.idx.val % 312 := by
  obtain h | h : u.idx.val = 312 ∨ u.idx.val < 312 := by omega
  · rw [tfRefill_of_end h, h]
    rfl
  · rw [tfRefill_of_lt h, Nat.mod_eq_of_lt h]

theorem tfDraw_idx_val (u : TfUnit) : (tfDraw u).2.idx.val = (tfRefill u).idx.val + 1 := by
  have hlt := tfRefill_idx_lt u
  rw [tfDraw_idx, Fin.val_ofNat, Nat.mod_eq_of_lt (by omega)]

/-- Settles O37: the named store and cursor are those after the refill, and the draw is read off from them. -/
theorem tfDrawTempersTheStoredWord : Obligations.TfDrawTempersTheStoredWord := by
  rintro u mt i x x1 x2 x3 hend hother rfl rfl rfl rfl
  obtain ⟨rfl, rfl⟩ : mt = (tfRefill u).mt ∧ i = (tfRefill u).idx.val := by
    by_cases h : u.idx.val = 312
    · rw [tfRefill_of_end h]
      exact hend h
    · rw [tfRefill_of_lt (by omega)]
      exact hother h
  exact ⟨rfl, tfDraw_mt u, tfDraw_idx_val u⟩

theorem tfAfter_zero (u : TfUnit) : tfAfter 0 u = u := rfl

theorem tfAfter_succ (n : Nat) (u : TfUnit) : tfAfter (n + 1) u = (tfDraw (tfAfter n u)).2 :=
  Function.iterate_succ_apply' _ n u

section Draws

variable {u : TfUnit} (h : u.idx.val = 312)
include h

/-- TF_IDX after n + 1 draws (41_generators.md R138). -/
theorem tfAfter_succ_idx (n : Nat) : (tfAfter (n + 1) u).idx.val = n % 312 + 1 := by
  induction n with
  | zero => rw [tfAfter_succ, tfAfter_zero, tfDraw_idx_val, tfRefill_idx, h]
  | succ n ih => rw [tfAfter_succ, tfDraw_idx_val, tfRefill_idx, ih, Nat.mod_add_mod]

/-- Of the first 312 draws the first twists and the others find the cursor below the end: draw n + 1 works on the
once-twisted store at word n. -/
theorem tfRefill_tfAfter {n : Nat} (hn : n < 312) :
    (tfRefill (tfAfter n u)).mt = twist u.mt ∧ (tfRefill (tfAfter n u)).idx.val = n := by
  induction n with
  | zero =>
    rw [tfAfter_zero, tfRefill_of_end h]
    exact ⟨rfl, rfl⟩
  | succ n ih =>
    have hidx : (tfAfter (n + 1) u).idx.val = n + 1 := by
      rw [tfAfter_succ_idx h, Nat.mod_eq_of_lt (by omega)]
    rw [tfRefill_of_lt (by omega)]
    refine ⟨?_, hidx⟩
    obtain ⟨hmt, -⟩ := ih (by omega)
    rw [tfAfter_succ, tfDraw_mt, hmt]

theorem tfAfter_succ_mt {n : Nat} (hn : n < 312) : (tfAfter (n + 1) u).mt = twist u.mt := by
  obtain ⟨hmt, -⟩ := tfRefill_tfAfter h hn
  rw [tfAfter_succ, tfDraw_mt, hmt]

/-- After 312 draws the cursor is at the end again (41_generators.md R138). -/
theorem tfAfter_313_mt : (tfAfter 313 u).mt = twist (twist u.mt) := by
  rw [tfAfter_succ, tfDraw_mt, tfRefill_of_end (tfAfter_succ_idx h 311), tfAfter_succ_mt h (by omega)]

end Draws

/-- Settles O38: each draw tempers the word its refilled unit points at. -/
theorem tfDrawsReturnTheBlockInOrder : Obligations.TfDrawsReturnTheBlockInOrder := by
  refine ⟨fun key => by simp, fun u h => ⟨fun k hk => ?_, fun k hk hle => ?_, tfAfter_313_mt h, fun k hk => ?_⟩⟩
  · obtain ⟨hmt, hidx⟩ := tfRefill_tfAfter h hk
    rw [tfDraw_fst, hmt, hidx]
  · obtain ⟨n, rfl⟩ := Nat.exists_eq_add_of_le' hk
    exact tfAfter_succ_mt h hle
  · obtain ⟨n, rfl⟩ := Nat.exists_eq_add_of_le' hk
    exact tfAfter_succ_idx h n

end Sys2Proof.Machine
end

section
/-! NEXT_WORD (41_generators.md R141). -/

namespace Sys2Proof.Machine

theorem high32_eq_setWidth (x : W64) : high32 x = (x >>> 32).setWidth 32 :=
  BitVec.eq_of_toNat_eq (by simp [high32])

/-- The command's whole effect: one draw with the latched SRTEMP, its word placed, LASTDRAWS 1. -/
theorem exec_nextWord_of_pending {s : State} {l : Latch} (h : s.pending = .command l) (f : Fam) :
    exec (.nextWord f) s = .next (((s.setUnits (draw f l.srtemp s.units).2).setResults
      (draw f l.srtemp s.units).1.res0 (draw f l.srtemp s.units).1.res1).setLastDraws 1) := by
  rw [exec, execNextWord, State.operands_of_pending h]

/-- Settles O39: the two words, their illegal forms, the first raw words by evaluation, and the effect by family. -/
theorem nextWordReturnsOneRawDraw : Obligations.NextWordReturnsOneRawDraw := by
  refine ⟨by decide, by decide, fun c _ => decode_error_of_reservedBits, by decide +kernel, ?_,
    fun s l hl => ⟨?_, ?_⟩⟩
  · rw [tfDraw_seedTF_fst (by decide) (by decide)]
    decide +kernel
  · exact exec_nextWord_of_pending hl .sr
  · rw [← low32_eq_setWidth, ← high32_eq_setWidth]
    exact exec_nextWord_of_pending hl .tf

end Sys2Proof.Machine
end

section
/-! The sampler's paths read as arithmetic (42_sampler.md R163-R166): remainders for masks, and the limit of the FULL path
as the largest multiple of the bound. -/

namespace Sys2Proof.Machine

theorem bitlen_eq_size (n : Nat) : bitlen n = Nat.size n := by
  rcases Nat.eq_zero_or_pos n with rfl | h
  · simp [bitlen]
  · refine le_antisymm ?_ (Nat.size_le.2 ?_) <;> rw [bitlen, if_neg h.ne']
    · exact Nat.lt_size.2 (Nat.log2_self_le h.ne')
    · exact Nat.lt_log2_self

theorem choosePath_of_pow2 {b : Nat} (h : b &&& (b - 1) = 0) (t : Nat) : choosePath b t = .pow2 := if_pos h

theorem choosePath_of_lt {b t : Nat} (h : b &&& (b - 1) ≠ 0) (hlt : b < t) : choosePath b t = .small := by
  rw [choosePath, if_neg h, if_pos hlt]

theorem choosePath_of_ge {b t : Nat} (h : b &&& (b - 1) ≠ 0) (hge : t ≤ b) : choosePath b t = .full := by
  rw [choosePath, if_neg h, if_neg hge.not_gt]

/-- The mask of the power-of-two path is the remainder by the bound (42_sampler.md R164). -/
theorem candidate_pow2 {b : Nat} (hb : 1 ≤ b) (h : b &&& (b - 1) = 0) (x : W32) :
    candidate .pow2 b x = some (x.toNat % b) := by
  obtain ⟨k, rfl⟩ := (Nat.and_sub_one_eq_zero_iff_isPowerOfTwo (Nat.ne_of_gt hb)).1 h
  rw [candidate, Nat.and_two_pow_sub_one_eq_mod]

/-- The lanes and their masks as remainders (42_sampler.md R162, R165). -/
theorem candidate_small (b : Nat) (x : W32) :
    candidate .small b x =
      (if x.toNat % 2 ^ 16 % 2 ^ Nat.size (b - 1) < b then some (x.toNat % 2 ^ 16 % 2 ^ Nat.size (b - 1))
       else if x.toNat / 2 ^ 16 % 2 ^ Nat.size (b - 1) < b then some (x.toNat / 2 ^ 16 % 2 ^ Nat.size (b - 1))
       else none) := by
  have hlane0 : (x.extractLsb' 0 16).toNat = x.toNat % 2 ^ 16 := by simp
  have hlane1 : (x.extractLsb' 16 16).toNat = x.toNat / 2 ^ 16 := by
    rw [BitVec.extractLsb'_toNat, Nat.shiftRight_eq_div_pow]
    omega
  simp only [candidate, smallCandidate, hlane0, hlane1, bitlen_eq_size, Nat.and_two_pow_sub_one_eq_mod]

/-- The limit is the largest multiple of b in [0, 2^32] (42_sampler.md R166). -/
theorem fullLimit_eq (b : Nat) : fullLimit b = 2 ^ 32 / b * b := by
  have := Nat.div_add_mod' (2 ^ 32) b
  unfold fullLimit
  omega

theorem candidate_full (b : Nat) (x : W32) :
    candidate .full b x = if x.toNat < 2 ^ 32 / b * b then some (x.toNat % b) else none := by
  rw [candidate, fullLimit_eq]

theorem candidate_full_eq_none_iff (b : Nat) (x : W32) : candidate .full b x = none ↔ 2 ^ 32 / b * b ≤ x.toNat := by
  simp [candidate_full]

/-- The multiplexer and the path it takes agree with the arithmetic reading (42_sampler.md R163). -/
theorem candidate_choosePath {b : Nat} (hb : 1 ≤ b) (t : Nat) (x : W32) :
    candidate (choosePath b t) b x = acceptSpec b t x := by
  unfold acceptSpec choosePath
  split
  · exact candidate_pow2 hb ‹_› x
  · split
    · exact candidate_small b x
    · exact candidate_full b x

/-- Settles O41: the rejection loop's two outcomes, with the paths read as arithmetic. -/
theorem boundedFollowsThePseudocode : Obligations.BoundedFollowsThePseudocode := by
  intro cap f tmp b t u hb _
  have hcand : candidate (choosePath b t) b = acceptSpec b t := funext (candidate_choosePath hb t)
  unfold bounded
  rw [hcand]
  refine ⟨fun n v hn hrej hacc => ?_, sampleLoop_gives_up f tmp _ cap 0 u⟩
  simpa using sampleLoop_accepts f tmp _ cap 0 u n v hn hrej hacc

/-- A bound that is no power of two lies strictly between the powers of two around it. -/
theorem between_pow_size {b : Nat} (hb : 1 ≤ b) (h : b &&& (b - 1) ≠ 0) :
    3 ≤ b ∧ 2 ^ (Nat.size (b - 1) - 1) < b ∧ b < 2 ^ Nat.size (b - 1) := by
  have h1 : b ≠ 1 := by rintro rfl; exact h rfl
  have h2 : b ≠ 2 := by rintro rfl; exact h rfl
  have hpow : b ≠ 2 ^ Nat.size (b - 1) := fun e =>
    h ((Nat.and_sub_one_eq_zero_iff_isPowerOfTwo (Nat.ne_of_gt hb)).2 ⟨_, e⟩)
  have hsize : 0 < Nat.size (b - 1) := Nat.size_pos.2 (by omega)
  have hlow : 2 ^ (Nat.size (b - 1) - 1) ≤ b - 1 := Nat.lt_size.1 (by omega)
  have hhigh : b - 1 < 2 ^ Nat.size (b - 1) := Nat.lt_size_self _
  omega

/-- Settles O42: the bounds from the bit length, the reduction from the lanes as remainders. -/
theorem smallPathMasksTwoLanes : Obligations.SmallPathMasksTwoLanes := by
  rintro b t k hb hpow hlt ht rfl
  obtain ⟨h3, hlow, hhigh⟩ := between_pow_size hb hpow
  have hk : Nat.size (b - 1) ≤ 16 := Nat.size_le.2 (by omega)
  exact ⟨choosePath_of_lt hpow hlt, h3, by omega, hlow, hhigh, hk, candidate_small b⟩

/-- Settles O43: the limit for every bound; for the two examples it is FFFFFFFE and FFFFFFFF. -/
theorem fullPathRejectsAboveTheLargestMultiple : Obligations.FullPathRejectsAboveTheLargestMultiple := by
  refine ⟨fun b t x _ _ hpow hge => ?_, fun x => ?_, fun x => ?_⟩
  · rw [choosePath_of_ge hpow hge]
    exact ⟨candidate_full b x, fullLimit_eq b⟩
  · rw [candidate_full_eq_none_iff]
    bv_omega
  · rw [candidate_full_eq_none_iff]
    bv_omega

end Sys2Proof.Machine
end

section
/-! NEXT_BOUNDED with a legal bound (42_sampler.md R164, R170). -/

namespace Sys2Proof.Machine

theorem sint32_of_lt {v : W32} (h : v.toNat < 2 ^ 31) : sint32 v = v.toNat := by
  rw [sint32, BitVec.getLsbD, Nat.testBit_lt_two_pow h]
  simp

/-- A legal latched bound passes the operand check (42_sampler.md R170). -/
theorem exec_nextBounded_of_legal {s : State} {l : Latch} (hp : s.pending = .command l) (h1 : 1 ≤ l.arg0.toNat)
    (h2 : l.arg0.toNat < 2 ^ 31) (f : Fam) :
    exec (.nextBounded f) s = .next (runSample 0x100000 f l.arg0.toNat placeSample s) := by
  rw [exec, execNextBounded, State.operands_of_pending hp, sint32_of_lt h2]
  exact if_neg (by omega)

/-- A sampling command whose first accepted word is word n + 1 places its sample after n + 1 draws (42_sampler.md
R163). -/
theorem runSample_of_accepted {s : State} {l : Latch} (hp : s.pending = .command l) {cap b n v : Nat} (f : Fam)
    (place : Nat → W32 × W32) (hn : n < cap)
    (hrej : ∀ j < n, candidate (choosePath b l.thresh.toNat) b (sampleAt f l.srtemp j s.units) = none)
    (hacc : candidate (choosePath b l.thresh.toNat) b (sampleAt f l.srtemp n s.units) = some v) :
    runSample cap f b place s = ((s.setUnits (unitsAfter f l.srtemp (n + 1) s.units)).setResults
      (place v).1 (place v).2).setLastDraws (n + 1) := by
  rw [runSample, State.operands_of_pending hp, bounded, sampleLoop_accepts f l.srtemp _ cap 0 s.units n v hn hrej hacc,
    Nat.zero_add]

/-- Settles O45: the power-of-two path accepts the first sample word, and masking is the bitwise and with b - 1. -/
theorem powerOfTwoBoundNeedsOneDraw : Obligations.PowerOfTwoBoundNeedsOneDraw := by
  intro f s l k hp hk hb
  have hpos : 1 ≤ l.arg0.toNat := hb ▸ Nat.one_le_two_pow
  have hlt : l.arg0.toNat < 2 ^ 31 := hb ▸ Nat.pow_lt_pow_right (by decide) (by omega)
  have hsub : (l.arg0 - 1#32).toNat = l.arg0.toNat - 1 := by bv_omega
  have hpow : l.arg0.toNat &&& (l.arg0.toNat - 1) = 0 :=
    (Nat.and_sub_one_eq_zero_iff_isPowerOfTwo (Nat.ne_of_gt hpos)).2 ⟨k, hb⟩
  have hand : BitVec.ofNat 32 ((sampleAt f l.srtemp 0 s.units).toNat &&& (l.arg0.toNat - 1)) =
      sampleAt f l.srtemp 0 s.units &&& (l.arg0 - 1#32) := by
    rw [← hsub, ← BitVec.toNat_and, BitVec.ofNat_toNat, BitVec.setWidth_eq]
  refine ⟨?_, ?_⟩
  · rw [exec_nextBounded_of_legal hp hpos hlt, runSample_of_accepted hp f placeSample (n := 0) (by decide) (by simp)
      (congrArg (candidate · _ _) (choosePath_of_pow2 hpow _)), placeSample, hand]
    rfl
  · rintro rfl
    have hone : l.arg0 = 1#32 := BitVec.eq_of_toNat_eq hb
    simp [hone]

end Sys2Proof.Machine
end

section
/-! The command lifecycle (43_control.md R190, R191): a register write and PENDING, the words of the commands, and the
engine step that completes whatever is pending, after any supported accesses that come first. -/

namespace Sys2Proof

/-- The word a command encodes to decodes to that command (30_encoding.md R91-R94). -/
theorem decode_encode (i : Instr) : decode (encode i) = .ok i := by
  cases i with
  | nop => decide
  | seedClear => decide
  | seedPush => decide
  | seedApply f => cases f <;> decide
  | nextWord f => cases f <;> decide
  | nextBounded f => cases f <;> decide
  | nextBoundedPair f => cases f <;> decide
  | softReset => decide

end Sys2Proof

namespace Sys2Proof.Machine

variable {s : State} {rest : List Event}

/-- Only a CMD write issues a command (43_control.md R190). -/
theorem regWrite_issues_nothing {r : Reg} (h : r ≠ .cmd) (x : W32) (s : State) :
    (regWrite r x s).pending = s.pending ∧ (regWrite r x s).busy = s.busy := by
  cases r with
  | cmd => exact absurd rfl h
  | status =>
    refine ⟨regWrite_status_pending x s, ?_⟩
    cases hx : x.getLsbD 1
    · rw [regWrite_status_of_unset hx]
    · rw [regWrite_status_of_set hx]; rfl
  | _ => exact ⟨rfl, rfl⟩

/-- Settles O19, by BUSY at the write. -/
theorem commandIssueLatchesOrOverruns : Obligations.CommandIssueLatchesOrOverruns :=
  fun s c => ⟨fun h => regWrite_cmd_of_idle h c, fun h => regWrite_cmd_of_busy h c,
    fun _ x h => regWrite_issues_nothing h x s⟩

/-- Settles O24: one legal word, the command's effect, and the overrun of every CMD write. -/
theorem nopOnlyClearsLastDraws : Obligations.NopOnlyClearsLastDraws :=
  ⟨by decide, fun _ => decode_error_of_familyless (by decide), fun _ => rfl, fun _ h => regWrite_cmd_of_busy h _⟩

theorem engineStep_of_empty (h : s.pending = .empty) : engineStep s = .next s := by
  simp only [engineStep, h]

theorem engineStep_of_reseed (h : s.pending = .reseed) : engineStep s = .next (reseed s).complete := by
  simp only [engineStep, h]

/-- A latched legal word runs its command after LASTDRAWS <- 0, and completes (43_control.md R191). -/
theorem engineStep_of_command {l : Latch} {i : Instr} (hp : s.pending = .command l) (hd : decode l.word = .ok i) :
    ∃ t, exec i (s.setLastDraws 0) = .next t ∧ engineStep s = .next t.complete := by
  obtain ⟨t, ht⟩ := exec_answers i (s.setLastDraws 0)
  exact ⟨t, ht, by simp only [engineStep, hp, runWord, hd, ht, completeOutcome]⟩

/-- An engine step leaves nothing pending. -/
theorem engineStep_completes (h : s.pending ≠ .empty) :
    ∃ t, engineStep s = .next t ∧ t.pending = .empty ∧ t.busy = false := by
  cases hp : s.pending with
  | empty => exact absurd hp h
  | reseed => exact ⟨_, engineStep_of_reseed hp, rfl, rfl⟩
  | command l =>
    obtain ⟨t, ht⟩ := runWord_answers l.word s
    exact ⟨t.complete, by simp only [engineStep, hp, ht, completeOutcome], rfl, rfl⟩

theorem step_of_noEvents (hrst : s.rstN = true) (hin : s.inputs = []) : step s = engineStep s := by
  simp only [step, stepOnce, hin, engineTurn, hrst, if_true]

theorem step_engineTurn (hrst : s.rstN = true) (hin : s.inputs = .engineTurn :: rest) :
    step s = engineStep (s.setInputs rest) := by
  simp only [step, stepOnce, hin, runEvent, engineTurn, State.setInputs_rstN, hrst, if_true]

/-- A register write empties no PENDING: a CMD write is dropped or latched, and the others leave it. -/
theorem regWrite_pending_ne_empty (r : Reg) (x : W32) (h : s.pending ≠ .empty) :
    (regWrite r x s).pending ≠ .empty := by
  by_cases hr : r = .cmd
  · subst hr
    cases hb : s.busy
    · rw [regWrite_cmd_of_idle hb]; nofun
    · rw [regWrite_cmd_of_busy hb]; exact h
  · rwa [(regWrite_issues_nothing hr x s).1]

theorem regWrite_port (r : Reg) (x : W32) (s : State) :
    (regWrite r x s).rstN = s.rstN ∧ (regWrite r x s).inputs = s.inputs := by
  obtain e | e | e | e | e | e | ⟨-, e⟩ | ⟨-, e⟩ := regWrite_cases r x s <;> rw [e] <;> exact ⟨rfl, rfl⟩

theorem regAt_of_mem_registerOffsets : ∀ off ∈ registerOffsets, (regAt off).isSome := by decide

/-- A supported access before the engine's turn is taken off the events and leaves the block pending. -/
theorem step_wordAccess_keeps_pending {off : Nat} {write : Bool} {x : W32} (hoff : off ∈ registerOffsets)
    (hrst : s.rstN = true) (hin : s.inputs = .access (wordAccess off write x) :: rest) (hp : s.pending ≠ .empty) :
    ∃ t, step s = .next t ∧ t.pending ≠ .empty ∧ t.rstN = true ∧ t.inputs = rest := by
  obtain ⟨r, hr⟩ := Option.isSome_iff_exists.mp (regAt_of_mem_registerOffsets off hoff)
  rw [step_access hin, busAccess_wordAccess (s := s.setInputs rest) hrst hr]
  cases write with
  | false => exact ⟨_, rfl, hp, hrst, rfl⟩
  | true =>
    obtain ⟨hpin, hinputs⟩ := regWrite_port r x (s.setInputs rest)
    exact ⟨_, rfl, regWrite_pending_ne_empty r x hp, hpin.trans hrst, hinputs⟩

theorem run_succ {M : Host.Core} {u v : M.State} (h : M.step u = .next v) (k : Nat) : M.run (k + 1) u = M.run k v := by
  rw [Host.Core.run, h]

/-- An engine turn, or a supported access at one of the sixteen registers. -/
def EngineTurnOrWordAccess (e : Event) : Prop :=
  e = .engineTurn ∨ ∃ off write x, off ∈ registerOffsets ∧ e = .access (wordAccess off write x)

/-- The first engine turn, or the end of the events, completes what is pending (43_control.md R191). -/
theorem run_completes (hrst : s.rstN = true) (hp : s.pending ≠ .empty)
    (hev : ∀ e ∈ s.inputs, EngineTurnOrWordAccess e) :
    ∃ k t, k ≤ s.inputs.length + 1 ∧ core.run k s = .next t ∧ t.pending = .empty ∧ t.busy = false := by
  induction hin : s.inputs generalizing s with
  | nil =>
    obtain ⟨t, ht, hdone⟩ := engineStep_completes hp
    exact ⟨1, t, by simp, run_succ (M := core) ((step_of_noEvents hrst hin).trans ht) 0, hdone⟩
  | cons e rest ih =>
    rw [hin] at hev
    obtain ⟨he, hrest⟩ := List.forall_mem_cons.mp hev
    obtain rfl | ⟨off, write, x, hoff, rfl⟩ := he
    · obtain ⟨t, ht, hdone⟩ := engineStep_completes (s := s.setInputs rest) hp
      exact ⟨1, t, by simp, run_succ (M := core) ((step_engineTurn hrst hin).trans ht) 0, hdone⟩
    · obtain ⟨t, ht, hpt, hrstt, hint⟩ := step_wordAccess_keeps_pending hoff hrst hin hp
      obtain ⟨k, u, hk, hu, hdone⟩ := ih hrstt hpt (hint ▸ hrest) hint
      exact ⟨k + 1, u, by simpa using hk, (run_succ (M := core) ht k).trans hu, hdone⟩

/-- Settles O21: the four things PENDING can hold, and completion by induction on the events. -/
theorem engineStepRunsThePendingOperation : Obligations.EngineStepRunsThePendingOperation := by
  refine ⟨fun _ => engineStep_of_empty, fun _ => engineStep_of_reseed, fun _ _ => engineStep_of_illegalWord,
    fun s l i hp hl => ⟨State.operands_of_pending hp, engineStep_of_command hp ?_⟩,
    fun _ => run_completes⟩
  rw [hl, decode_encode]

end Sys2Proof.Machine
end

section
/-! SOFT_RESET (43_control.md R193), and the first SR word after it. -/

namespace Sys2Proof.Machine

/-- A NEXT_WORD that an idle block accepts answers the next raw word with the SRTEMP of its CMD write. -/
theorem engineStep_issued_nextWord {s : State} {c : W32} {f : Fam} (hb : s.busy = false)
    (hd : decode c = .ok (.nextWord f)) : ∃ u, engineStep (regWrite .cmd c s) = .next u ∧
      u.res0 = (draw f s.srtemp s.units).1.res0 ∧ u.res1 = (draw f s.srtemp s.units).1.res1 := by
  rw [engineStep_issued hb hd, exec_nextWord_of_pending (l := s.snapshot c) rfl]
  exact ⟨_, rfl, rfl, rfl⟩

theorem reseed_resetState_resetRegisters (s : State) : (reseed (resetState s)).ResetRegisters := by
  constructor <;> rfl

/-- The RESEED step of a hardware reset ends where SOFT_RESET does, but for the pin (43_control.md R193). -/
theorem reseed_hardReset_complete (s : State) :
    (reseed (hardReset s)).complete = (reseed (resetState s)).setRstN true := rfl

/-- Settles O8: one legal word, ResetState with both families seeded, and the first SR word of the empty seed. -/
theorem softResetRestoresTheResetState : Obligations.SoftResetRestoresTheResetState := by
  refine ⟨by decide, fun _ => decode_error_of_familyless (by decide), fun s => ?_⟩
  obtain ⟨-, -, -, hword, -⟩ := nextWordReturnsOneRawDraw
  obtain ⟨u, hu, hres0, -⟩ := engineStep_issued_nextWord (s := reseed (resetState s)) (c := 0x00000004#32) (f := .sr)
    rfl (by decide)
  exact ⟨reseed (resetState s), (reseed (hardReset s)).complete, u, rfl, reseed_resetState_resetRegisters s, rfl, rfl,
    rfl, engineStep_of_reseed rfl, reseed_hardReset_complete s, hu, hres0.trans hword⟩

end Sys2Proof.Machine
end

section
/-! Bad operands (60_exceptions.md R203, R204): the operand checks read as arithmetic on the registers, and the errors
they raise before any draw. -/

namespace Sys2Proof.Machine

theorem sint32_of_ge {v : W32} (h : 2 ^ 31 ≤ v.toNat) : sint32 v = v.toNat - 2 ^ 32 := by
  have hbit : v.getLsbD 31 = true := by
    rw [← BitVec.msb_eq_getLsbD_last (x := v), BitVec.msb_eq_decide]
    exact decide_eq_true h
  rw [sint32, if_pos hbit]

/-- A bound is non-positive when its register is 0 or has bit 31 set (30_encoding.md R96). -/
theorem sint32_nonpos_iff (v : W32) : sint32 v ≤ 0 ↔ v.toNat = 0 ∨ 2 ^ 31 ≤ v.toNat := by
  rcases Nat.lt_or_ge v.toNat (2 ^ 31) with h | h
  · rw [sint32_of_lt h]; omega
  · rw [sint32_of_ge h]; omega

/-- The check of a pair: positive bounds are the registers' own values, so their product is (42_sampler.md R171). -/
theorem badPair_iff (a b : W32) :
    (sint32 a ≤ 0 ∨ sint32 b ≤ 0 ∨ 2 ^ 31 ≤ sint32 a * sint32 b) ↔
      (a.toNat = 0 ∨ 2 ^ 31 ≤ a.toNat ∨ b.toNat = 0 ∨ 2 ^ 31 ≤ b.toNat ∨ 2 ^ 31 ≤ a.toNat * b.toNat) := by
  rw [sint32_nonpos_iff, sint32_nonpos_iff]
  rcases Nat.lt_or_ge a.toNat (2 ^ 31) with ha | ha
  · rcases Nat.lt_or_ge b.toNat (2 ^ 31) with hb | hb
    · rw [sint32_of_lt ha, sint32_of_lt hb, ← Nat.cast_mul]; omega
    · simp only [hb, true_or, or_true]
  · simp only [ha, true_or, or_true]

theorem execNextBounded_of_nonpos {s : State} (h : sint32 s.operands.arg0 ≤ 0) (f : Fam) :
    execNextBounded f s = .next ((s.setLastDraws 0).raise .invalidBound) := if_pos h

theorem execNextBounded_of_pos {s : State} (h : ¬ sint32 s.operands.arg0 ≤ 0) (f : Fam) :
    execNextBounded f s = .next (runSample Config.rejectCap f (sint32 s.operands.arg0).toNat placeSample s) :=
  if_neg h

/-- The latched pair that NEXT_BOUNDED_PAIR refuses (42_sampler.md R171). -/
def Latch.BadPair (l : Latch) : Prop :=
  sint32 l.arg0 ≤ 0 ∨ sint32 l.arg1 ≤ 0 ∨ 2 ^ 31 ≤ sint32 l.arg0 * sint32 l.arg1

theorem execNextBoundedPair_of_bad {s : State} (h : s.operands.BadPair) (f : Fam) :
    execNextBoundedPair f s = .next ((s.setLastDraws 0).raise .invalidPair) := if_pos h

theorem execNextBoundedPair_of_good {s : State} (h : ¬ s.operands.BadPair) (f : Fam) :
    execNextBoundedPair f s = .next (runSample Config.rejectCap f
      (sint32 s.operands.arg0 * sint32 s.operands.arg1).toNat (placePair (sint32 s.operands.arg1).toNat) s) :=
  if_neg h

/-- Settles O49: a bad register is a non-positive bound, and the check comes before the draws. -/
theorem nonPositiveBoundRaisesInvalidBound : Obligations.NonPositiveBoundRaisesInvalidBound := by
  intro f s l hp hbad
  exact execNextBounded_of_nonpos (by rwa [State.operands_of_pending hp, sint32_nonpos_iff]) f

/-- Settles O51: the five disjuncts are the pair check read on the registers. -/
theorem badPairRaisesInvalidPair : Obligations.BadPairRaisesInvalidPair := by
  intro f s l hp hbad
  exact execNextBoundedPair_of_bad (by rwa [State.operands_of_pending hp, Latch.BadPair, badPair_iff]) f

end Sys2Proof.Machine
end

section
/-! The rejection cap (60_exceptions.md R206). -/

namespace Sys2Proof.Machine

variable {s : State} {l : Latch}

/-- A legal latched pair passes the operand check with its exact product as the bound (42_sampler.md R171). -/
theorem exec_nextBoundedPair_of_legal (hp : s.pending = .command l) (h0 : 1 ≤ l.arg0.toNat)
    (h0' : l.arg0.toNat < 2 ^ 31) (h1 : 1 ≤ l.arg1.toNat) (h1' : l.arg1.toNat < 2 ^ 31)
    (hprod : l.arg0.toNat * l.arg1.toNat < 2 ^ 31) (f : Fam) :
    exec (.nextBoundedPair f) s =
      .next (runSample 0x100000 f (l.arg0.toNat * l.arg1.toNat) (placePair l.arg1.toNat) s) := by
  have hgood : ¬ s.operands.BadPair := by
    rw [State.operands_of_pending hp, Latch.BadPair, badPair_iff]
    omega
  rw [exec, execNextBoundedPair_of_good hgood, State.operands_of_pending hp, sint32_of_lt h0', sint32_of_lt h1',
    ← Nat.cast_mul, Int.toNat_natCast, Int.toNat_natCast]
  rfl

/-- A sampling command whose every allowed word is rejected records REJECT_CAP_EXCEEDED after the cap's draws
(42_sampler.md R167). -/
theorem runSample_of_rejected (hp : s.pending = .command l) {cap b : Nat} (f : Fam) (place : Nat → W32 × W32)
    (hrej : ∀ j < cap, candidate (choosePath b l.thresh.toNat) b (sampleAt f l.srtemp j s.units) = none) :
    runSample cap f b place s =
      ((s.setUnits (unitsAfter f l.srtemp cap s.units)).setLastDraws cap).raise .rejectCapExceeded := by
  rw [runSample, State.operands_of_pending hp, bounded, sampleLoop_gives_up f l.srtemp _ cap 0 s.units hrej]

/-- Settles O48: the loop gives up, with the paths read as arithmetic; legal operands start it with the cap 2^20. -/
theorem rejectCapEndsTheCommand : Obligations.RejectCapEndsTheCommand := by
  refine ⟨fun cap b f place s l hp hb _ hrej => ?_, fun f s l hp h1 h2 => exec_nextBounded_of_legal hp h1 h2 f,
    fun f s l hp h0 h0' h1 h1' hprod => exec_nextBoundedPair_of_legal hp h0 h0' h1 h1' hprod f⟩
  exact runSample_of_rejected hp f place fun j hj => (candidate_choosePath hb _ _).trans (hrej j hj)

end Sys2Proof.Machine
end

section
/-! ERR and ERRCODE as a command finds them (60_exceptions.md R205, R208, R212): no command reads them, so it either
leaves them as they are or ends in one state whatever they were. -/

namespace Sys2Proof.Machine

/-- The state with ERR = e and ERRCODE = c. -/
def State.withError (s : State) (e : Bool) (c : BitVec 4) : State := { s with err := e, errCode := c }

@[simp] theorem State.withError_units (s : State) (e : Bool) (c : BitVec 4) : (s.withError e c).units = s.units := rfl

@[simp] theorem State.withError_operands (s : State) (e : Bool) (c : BitVec 4) :
    (s.withError e c).operands = s.operands := rfl

/-- From s, `run` answers the same state for every ERR and ERRCODE, with those two kept. -/
def KeepsError (run : State → Host.Outcome State Fault Refusal) (s : State) : Prop :=
  ∃ t : State, ∀ e c, run (s.withError e c) = .next (t.withError e c)

/-- From s, `run` answers t whatever ERR and ERRCODE were. -/
def OverwritesError (run : State → Host.Outcome State Fault Refusal) (s t : State) : Prop :=
  ∀ e c, run (s.withError e c) = .next t

/-- The state after a command that raised an error: INVALID_BOUND, INVALID_PAIR, or REJECT_CAP_EXCEEDED
after 2^20 draws (60_exceptions.md R203, R204, R206). -/
def State.RecordsCommandError (t : State) : Prop :=
  t.err = true ∧ (t.errCode = 2#4 ∨ t.errCode = 3#4 ∨ (t.errCode = 4#4 ∧ t.lastDraws = BitVec.ofNat 21 0x100000))

/-- From s, `run` keeps ERR and ERRCODE, or records a command's error over them. -/
def KeepsOrRecordsError (run : State → Host.Outcome State Fault Refusal) (s : State) : Prop :=
  KeepsError run s ∨ ∃ t, OverwritesError run s t ∧ t.RecordsCommandError

theorem State.pushSeed_withError (s : State) (w : W64) (e : Bool) (c : BitVec 4) :
    (s.withError e c).pushSeed w = (s.pushSeed w).withError e c := by
  rcases Nat.lt_or_ge s.seedLen.val 312 with h | h
  · rw [State.pushSeed_of_lt h, State.pushSeed_of_lt (s := s.withError e c) h]; rfl
  · have hfull : s.seedLen.val = 312 := by omega
    rw [State.pushSeed_of_full hfull, State.pushSeed_of_full (s := s.withError e c) hfull]; rfl

/-- The draws do not see the error: an accepted word leaves it, and the cap overwrites it. -/
theorem runSample_error_cases (cap : Nat) (f : Fam) (b : Nat) (place : Nat → W32 × W32) (s : State) :
    (∃ t : State, ∀ e c, runSample cap f b place (s.withError e c) = t.withError e c) ∨
    ∃ u, ∀ e c, runSample cap f b place (s.withError e c) =
      ((s.setUnits u).setLastDraws cap).raise .rejectCapExceeded := by
  rcases hr : bounded cap f s.operands.srtemp b s.operands.thresh.toNat s.units with ⟨u, _ | ⟨v, n⟩⟩
  · refine .inr ⟨u, fun e c => ?_⟩
    rw [runSample, State.withError_operands, State.withError_units, hr]
    rfl
  · refine .inl ⟨((s.setUnits u).setResults (place v).1 (place v).2).setLastDraws n, fun e c => ?_⟩
    rw [runSample, State.withError_operands, State.withError_units, hr]
    rfl

/-- Past the operand check a sampling command does with the error what its draws do. -/
theorem keepsOrRecordsError_of_runSample {run : State → Host.Outcome State Fault Refusal} {s : State} (f : Fam)
    (b : Nat) (place : Nat → W32 × W32)
    (h : ∀ e c, run (s.withError e c) = .next (runSample Config.rejectCap f b place (s.withError e c))) :
    KeepsOrRecordsError run s := by
  obtain ⟨t, ht⟩ | ⟨u, hu⟩ := runSample_error_cases Config.rejectCap f b place s
  · exact .inl ⟨t, fun e c => (h e c).trans (congrArg _ (ht e c))⟩
  · exact .inr ⟨_, fun e c => (h e c).trans (congrArg _ (hu e c)), rfl, .inr (.inr ⟨rfl, rfl⟩)⟩

theorem execNextBounded_keepsOrRecordsError (f : Fam) (s : State) : KeepsOrRecordsError (execNextBounded f) s := by
  by_cases h : sint32 s.operands.arg0 ≤ 0
  · exact .inr ⟨(s.setLastDraws 0).raise .invalidBound,
      fun e c => execNextBounded_of_nonpos (s := s.withError e c) h f, rfl, .inl rfl⟩
  · exact keepsOrRecordsError_of_runSample f (sint32 s.operands.arg0).toNat placeSample
      fun e c => execNextBounded_of_pos (s := s.withError e c) h f

theorem execNextBoundedPair_keepsOrRecordsError (f : Fam) (s : State) :
    KeepsOrRecordsError (execNextBoundedPair f) s := by
  by_cases h : s.operands.BadPair
  · exact .inr ⟨(s.setLastDraws 0).raise .invalidPair,
      fun e c => execNextBoundedPair_of_bad (s := s.withError e c) h f, rfl, .inr (.inl rfl)⟩
  · exact keepsOrRecordsError_of_runSample f (sint32 s.operands.arg0 * sint32 s.operands.arg1).toNat
      (placePair (sint32 s.operands.arg1).toNat) fun e c => execNextBoundedPair_of_good (s := s.withError e c) h f

/-- SOFT_RESET clears the error; every other command keeps it or records its own (60_exceptions.md R209). -/
theorem exec_keepsOrRecordsError {i : Instr} (hi : i ≠ .softReset) (s : State) : KeepsOrRecordsError (exec i) s := by
  cases i with
  | nop => exact .inl ⟨s.setLastDraws 0, fun _ _ => rfl⟩
  | seedClear => exact .inl ⟨s.clearSeed.setLastDraws 0, fun _ _ => rfl⟩
  | seedPush =>
    refine .inl ⟨(s.pushSeed s.operands.seedWord).setLastDraws 0, fun e c => ?_⟩
    rw [exec, execSeedPush, State.withError_operands, State.pushSeed_withError]
    rfl
  | seedApply f => exact .inl ⟨(s.setUnits (s.units.seed f s.seedKey)).setLastDraws 0, fun _ _ => rfl⟩
  | nextWord f =>
    exact .inl ⟨((s.setUnits (draw f s.operands.srtemp s.units).2).setResults
      (draw f s.operands.srtemp s.units).1.res0 (draw f s.operands.srtemp s.units).1.res1).setLastDraws 1,
      fun _ _ => rfl⟩
  | nextBounded f => exact execNextBounded_keepsOrRecordsError f s
  | nextBoundedPair f => exact execNextBoundedPair_keepsOrRecordsError f s
  | softReset => exact absurd rfl hi

theorem exec_softReset_overwritesError (s : State) :
    OverwritesError (exec .softReset) s (reseed (resetState s)) := fun _ _ => rfl

/-- Every command keeps or overwrites the error it finds, and answers (60_exceptions.md R212). -/
theorem exec_keeps_or_overwrites_error (i : Instr) (s : State) :
    KeepsError (exec i) s ∨ ∃ t, OverwritesError (exec i) s t := by
  by_cases hi : i = .softReset
  · exact .inr ⟨_, hi ▸ exec_softReset_overwritesError s⟩
  · exact (exec_keepsOrRecordsError hi s).imp_right fun ⟨t, ht, _⟩ => ⟨t, ht⟩

/-- Command issue looks at BUSY, not at the error (43_control.md R190). -/
theorem regWrite_cmd_withError (c : W32) (s : State) (e : Bool) (code : BitVec 4) :
    (regWrite .cmd c (s.withError e code)).pending = (regWrite .cmd c s).pending ∧
      (regWrite .cmd c (s.withError e code)).busy = (regWrite .cmd c s).busy := by
  rcases Bool.eq_false_or_eq_true s.busy with hb | hb
  · rw [regWrite_cmd_of_busy hb, regWrite_cmd_of_busy (s := s.withError e code) hb]
    exact ⟨rfl, rfl⟩
  · rw [regWrite_cmd_of_idle hb, regWrite_cmd_of_idle (s := s.withError e code) hb]
    exact ⟨rfl, rfl⟩

/-- Settles O54: a CMD write by BUSY, a command by what it does with the error, and the STATUS write that clears it. -/
theorem errorsDoNotBlockCommands : Obligations.ErrorsDoNotBlockCommands := by
  refine ⟨fun s e code c => regWrite_cmd_withError c s e code, fun i s e code => ?_, fun s x hx => ?_⟩
  · obtain ⟨t, ht⟩ | ⟨t, ht⟩ := exec_keeps_or_overwrites_error i s
    · exact ⟨t.withError s.err s.errCode, t.withError e code, ht s.err s.errCode, ht e code, rfl⟩
    · exact ⟨t, t, ht s.err s.errCode, ht e code, rfl⟩
  · rw [regWrite_status_of_set hx]
    exact ⟨rfl, rfl⟩

end Sys2Proof.Machine
end

section
/-! The order of the checks (60_exceptions.md R208), and a CMD write while a command is pending (R205). -/

namespace Sys2Proof.Machine

variable {s t : State} {l : Latch} {i : Instr}

theorem engineStep_of_exec (hp : s.pending = .command l) (hd : decode l.word = .ok i)
    (hx : exec i (s.setLastDraws 0) = .next t) : engineStep s = .next t.complete := by
  simp only [engineStep, hp, runWord, hd, hx, completeOutcome]

/-- A command that starts with ERR = 0 and ends with ERR = 1 recorded the error itself. -/
theorem exec_recordsCommandError (h : exec i s = .next t) (hs : s.err = false) (ht : t.err = true) :
    t.RecordsCommandError := by
  have hi : i ≠ .softReset := by
    rintro rfl
    injection h with h
    subst h
    exact absurd ht Bool.false_ne_true
  obtain ⟨u, hu⟩ | ⟨u, hu, hrec⟩ := exec_keepsOrRecordsError hi s
  · injection h.symm.trans (hu s.err s.errCode) with h
    subst h
    exact absurd (hs.symm.trans ht) Bool.false_ne_true
  · injection h.symm.trans (hu s.err s.errCode) with h
    exact h ▸ hrec

/-- Settles O53: OVERRUN at the write, ILLEGAL_CMD by the decoder, the operand errors by the checks before the draws,
and what else a command can record. -/
theorem errorChecksInOrder : Obligations.ErrorChecksInOrder := by
  refine ⟨fun s c hb => regWrite_cmd_of_busy hb c, fun s l hp hl => engineStep_of_illegalWord hp hl,
    fun f s l hp hl hbad => ?_, fun f s l hp hl hbad => ?_, fun i s t h hs ht => (exec_recordsCommandError h hs ht).2⟩
  · exact engineStep_of_exec hp (hl ▸ decode_encode _) (nonPositiveBoundRaisesInvalidBound f _ l hp hbad)
  · exact engineStep_of_exec hp (hl ▸ decode_encode _) (badPairRaisesInvalidPair f _ l hp hbad)

/-- What a command does with the error, its engine step does: LASTDRAWS <- 0 and completion leave the error alone. -/
theorem engineStep_keepsError (hp : s.pending = .command l) (hd : decode l.word = .ok i)
    (h : KeepsError (exec i) (s.setLastDraws 0)) : KeepsError engineStep s := by
  obtain ⟨t, ht⟩ := h
  exact ⟨t.complete, fun e c => engineStep_of_exec (s := s.withError e c) hp hd (ht e c)⟩

theorem engineStep_overwritesError (hp : s.pending = .command l) (hd : decode l.word = .ok i)
    (h : OverwritesError (exec i) (s.setLastDraws 0) t) : OverwritesError engineStep s t.complete :=
  fun e c => engineStep_of_exec (s := s.withError e c) hp hd (h e c)

theorem engineStep_illegalWord_overwritesError (hp : s.pending = .command l) (hl : IllegalWord l.word) :
    OverwritesError engineStep s ((s.setLastDraws 0).raise .illegalCmd).complete :=
  fun e c => engineStep_of_illegalWord (s := s.withError e c) hp hl

/-- The engine step of a latched word keeps the error it finds, or overwrites it: with its own, or as SOFT_RESET. -/
theorem engineStep_error_cases (hp : s.pending = .command l) :
    (decode l.word ≠ .ok .softReset ∧ KeepsError engineStep s) ∨
      ∃ t, OverwritesError engineStep s t ∧ (decode l.word = .ok .softReset ∨ t.err = true) := by
  cases hd : decode l.word with
  | error _ => exact .inr ⟨_, engineStep_illegalWord_overwritesError hp (illegalWord_of_decode_error hd), .inr rfl⟩
  | ok i =>
    by_cases hi : i = .softReset
    · subst hi
      exact .inr ⟨_, engineStep_overwritesError hp hd (exec_softReset_overwritesError _), .inl rfl⟩
    · obtain hkeep | ⟨t, ht, hrec⟩ := exec_keepsOrRecordsError hi (s.setLastDraws 0)
      · exact .inl ⟨fun h => hi (Except.ok.inj h), engineStep_keepsError hp hd hkeep⟩
      · exact .inr ⟨t.complete, engineStep_overwritesError hp hd ht, .inr hrec.1⟩

/-- Settles O20: the write records OVERRUN only, which the engine step then keeps or overwrites. -/
theorem overrunLeavesThePendingCommand : Obligations.OverrunLeavesThePendingCommand := by
  intro s l c hb hp
  have hw : regWrite .cmd c s = s.withError true 5#4 := regWrite_cmd_of_busy hb c
  rw [hw]
  obtain ⟨hne, t, ht⟩ | ⟨t, ht, hown⟩ := engineStep_error_cases hp
  · refine ⟨t.withError s.err s.errCode, t.withError true 5#4, ht s.err s.errCode, rfl, ht true 5#4, rfl,
      fun h => absurd h hne, fun _ hs => ⟨fun herr => ?_, fun _ => ⟨rfl, rfl⟩⟩⟩
    exact absurd (hs.symm.trans herr) Bool.false_ne_true
  · refine ⟨t, t, ht s.err s.errCode, rfl, ht true 5#4, rfl, fun _ => rfl,
      fun hne _ => ⟨fun _ => rfl, fun hnone => ?_⟩⟩
    obtain h | herr := hown
    · exact absurd h hne
    · exact absurd (hnone.symm.trans herr) Bool.false_ne_true

end Sys2Proof.Machine
end

section
/-! Hardware reset (70_reset_and_hazards.md R230, R231, R234): the pin, the state Reset() leaves, and the RESEED step. -/

namespace Sys2Proof.Machine

variable {s : State} {rest : List Event}

theorem step_event {e : Event} (hin : s.inputs = e :: rest) : step s = runEvent e (s.setInputs rest) := by
  simp only [step, stepOnce, hin]

/-- Reset() leaves the registers as ResetState does, with the RESEED pending and rst_n released. -/
theorem hardReset_leaves (s : State) : (hardReset s).ResetRegisters ∧ (hardReset s).pending = .reseed ∧
    (hardReset s).busy = true ∧ (hardReset s).rstN = true :=
  ⟨by constructor <;> rfl, rfl, rfl, rfl⟩

/-- Settles O12: what each event does, and what Reset() leaves. -/
theorem resetPinHoldsTheBlock : Obligations.ResetPinHoldsTheBlock := by
  intro s rest
  refine ⟨fun a hrst hin => ?access, fun hrst hin => ?turn, fun hin => ⟨_, step_event hin, rfl⟩,
    fun hrst hin => ⟨_, ?rise, rfl, hardReset_leaves _⟩, fun hin => ⟨_, step_event hin, rfl, hardReset_leaves _⟩⟩
  case access => rw [step_event hin]; exact if_pos hrst
  case turn => rw [step_event hin]; exact if_neg (Bool.eq_false_iff.mp hrst)
  case rise => rw [step_event hin]; exact if_neg (Bool.eq_false_iff.mp hrst)

/-- Settles O5: the two steps, command issue while BUSY = 1, and SOFT_RESET, which seeds the same units. -/
theorem hardwareResetThenReseed : Obligations.HardwareResetThenReseed := by
  intro s rest hin
  obtain ⟨hregs, hpending, hbusy, hrst⟩ := hardReset_leaves (s.setInputs (.engineTurn :: rest))
  have hturn := (step_engineTurn hrst (hardReset_inputs _)).trans (engineStep_of_reseed hpending)
  exact ⟨_, _, _, step_event hin, hturn, rfl, hregs, hpending, hbusy, regWrite_cmd_of_busy hbusy, rfl,
    reseed_resetState_resetRegisters s, rfl, rfl, rfl⟩

/-- The RESEED step after a hardware reset. -/
theorem engineStep_hardReset (s : State) : engineStep (hardReset s) = .next (reseed (hardReset s)).complete :=
  engineStep_of_reseed rfl

/-- Settles O7: after the RESEED step nothing but the four fields set aside comes from the state before. -/
theorem resetsAreDeterministic : Obligations.ResetsAreDeterministic := by
  intro s s'
  refine ⟨_, _, engineStep_hardReset s, engineStep_hardReset s', rfl, fun f n => ?_⟩
  simp only [State.complete_units, State.complete_srtemp, reseed_units, reseed_srtemp, hardReset_srtemp]

end Sys2Proof.Machine
end

section
/-! The live registers while a command is pending (70_reset_and_hazards.md R242): every command but SOFT_RESET commutes
with replacing ARG0, ARG1, THRESH and SRTEMP, and SOFT_RESET overwrites them. -/

namespace Sys2Proof.Machine

/-- Completion commutes with a change of fields that it does not write. -/
theorem completeOutcome_mapNext {g : State → State} (hg : ∀ t : State, (g t).complete = g t.complete)
    (o : Host.Outcome State Fault Refusal) : completeOutcome (mapNext g o) = mapNext g (completeOutcome o) := by
  cases o with
  | next t => exact congrArg _ (hg t)
  | fault _ => rfl
  | refused _ => rfl

/-- The state whose ARG0, ARG1, THRESH and SRTEMP are the ones in the latch r. -/
def State.withLive (s : State) (r : Latch) : State :=
  { s with arg0 := r.arg0, arg1 := r.arg1, thresh := r.thresh, srtemp := r.srtemp }

section WithLive

variable {s : State} {l : Latch} {i : Instr} (r : Latch)

@[simp] theorem State.withLive_units (s : State) : (s.withLive r).units = s.units := rfl

theorem State.pushSeed_withLive (s : State) (w : W64) : (s.withLive r).pushSeed w = (s.pushSeed w).withLive r := by
  rcases Nat.lt_or_ge s.seedLen.val 312 with h | h
  · rw [State.pushSeed_of_lt h, State.pushSeed_of_lt (s := s.withLive r) h]; rfl
  · have hfull : s.seedLen.val = 312 := by omega
    rw [State.pushSeed_of_full hfull, State.pushSeed_of_full (s := s.withLive r) hfull]; rfl

theorem execSoftReset_withLive (s : State) : execSoftReset (s.withLive r) = execSoftReset s := rfl

section Latched

variable (hp : s.pending = .command l)
include hp

/-- A latched command's operands are not the live registers (30_encoding.md R95). -/
theorem State.withLive_operands : (s.withLive r).operands = s.operands :=
  (State.operands_of_pending (s := s.withLive r) hp).trans (State.operands_of_pending hp).symm

theorem runSample_withLive (cap : Nat) (f : Fam) (b : Nat) (place : Nat → W32 × W32) :
    runSample cap f b place (s.withLive r) = (runSample cap f b place s).withLive r := by
  simp only [runSample, State.withLive_operands r hp, State.withLive_units]
  generalize bounded cap f s.operands.srtemp b s.operands.thresh.toNat s.units = d
  obtain ⟨u, _ | ⟨v, n⟩⟩ := d <;> rfl

theorem execSeedPush_withLive : execSeedPush (s.withLive r) = mapNext (·.withLive r) (execSeedPush s) := by
  simp only [execSeedPush, State.withLive_operands r hp, State.pushSeed_withLive]
  rfl

theorem execNextWord_withLive (f : Fam) :
    execNextWord f (s.withLive r) = mapNext (·.withLive r) (execNextWord f s) := by
  simp only [execNextWord, State.withLive_operands r hp]
  rfl

theorem execNextBounded_withLive (f : Fam) :
    execNextBounded f (s.withLive r) = mapNext (·.withLive r) (execNextBounded f s) := by
  simp only [execNextBounded, State.withLive_operands r hp, runSample_withLive r hp]
  split <;> rfl

theorem execNextBoundedPair_withLive (f : Fam) :
    execNextBoundedPair f (s.withLive r) = mapNext (·.withLive r) (execNextBoundedPair f s) := by
  simp only [execNextBoundedPair, State.withLive_operands r hp, runSample_withLive r hp]
  split <;> rfl

theorem exec_withLive (hi : i ≠ .softReset) : exec i (s.withLive r) = mapNext (·.withLive r) (exec i s) := by
  cases i with
  | nop => rfl
  | seedClear => rfl
  | seedPush => exact execSeedPush_withLive r hp
  | seedApply f => rfl
  | nextWord f => exact execNextWord_withLive r hp f
  | nextBounded f => exact execNextBounded_withLive r hp f
  | nextBoundedPair f => exact execNextBoundedPair_withLive r hp f
  | softReset => exact absurd rfl hi

/-- An accepted word runs its command, an illegal word only records its error. -/
theorem runWord_withLive {c : W32} (hc : decode c ≠ .ok .softReset) :
    runWord c (s.withLive r) = mapNext (·.withLive r) (runWord c s) := by
  cases hd : decode c with
  | ok i =>
    have hi : i ≠ .softReset := fun h => hc (h ▸ hd)
    simp only [runWord, hd]
    exact exec_withLive (s := s.setLastDraws 0) r hp hi
  | error e =>
    simp only [runWord, hd]
    rfl

theorem engineStep_latched : engineStep s = completeOutcome (runWord l.word s) := by
  simp only [engineStep, hp]

theorem engineStep_withLive (hl : decode l.word ≠ .ok .softReset) :
    engineStep (s.withLive r) = mapNext (·.withLive r) (engineStep s) := by
  rw [engineStep_latched (s := s.withLive r) hp, engineStep_latched hp, runWord_withLive r hp hl]
  exact completeOutcome_mapNext (g := (·.withLive r)) (fun _ => rfl) _

theorem engineStep_withLive_of_softReset (hl : decode l.word = .ok .softReset) :
    engineStep (s.withLive r) = engineStep s := by
  rw [engineStep_latched (s := s.withLive r) hp, engineStep_latched hp]
  simp only [runWord, hl]
  exact congrArg completeOutcome (execSoftReset_withLive r (s.setLastDraws 0))

end Latched

end WithLive

/-- Settles O23: the latched word's run commutes with the change of the registers, or does not see it. -/
theorem snapshotFixesThePendingCommand : Obligations.SnapshotFixesThePendingCommand :=
  fun _ l a0 a1 th tmp hp => ⟨engineStep_withLive ⟨l.word, a0, a1, th, tmp⟩ hp,
    engineStep_withLive_of_softReset ⟨l.word, a0, a1, th, tmp⟩ hp⟩

end Sys2Proof.Machine
end

section
/-! The values of the reset table once the RESEED step has completed (70_reset_and_hazards.md R232). -/

namespace Sys2Proof.Machine

/-- With the registers as ResetState leaves them, STATUS shows BUSY alone (10_state.md R35). -/
theorem State.ResetRegisters.regRead_status {s : State} (h : s.ResetRegisters) :
    regRead .status s = if s.busy then 0x00000001#32 else 0x00000000#32 := by
  cases hb : s.busy <;> simp [regRead, State.statusWord, h.seedTrunc, h.errCode, h.err, hb]

set_option maxRecDepth 16000 in -- the passes of the list form recurse over 312 words
/-- The words of MT that the table of 70_reset_and_hazards.md R232 gives, by evaluation on lists. -/
theorem seedTF_fallbackKey_words :
    readWord (seedTF [0#64]).mt 1 = 0x04DDBCD6A1C95C0B#64 ∧ readWord (seedTF [0#64]).mt 2 = 0xA3F1BC2C29F6E9A1#64 ∧
    readWord (seedTF [0#64]).mt 3 = 0x375BDC145804A6FC#64 ∧
    readWord (seedTF [0#64]).mt 311 = 0x47414653D2467D28#64 := by
  simp only [readWord_seedTF [0#64] (by decide) (by decide)]
  decide

/-- Settles O6: V and MT by evaluation, the registers from ResetState, and the first words from the seeded units. -/
theorem tableValuesAfterReseed : Obligations.TableValuesAfterReseed := by
  intro s
  obtain ⟨hregs, -, -, -⟩ := hardReset_leaves s
  obtain ⟨hmt1, hmt2, hmt3, hmt311⟩ := seedTF_fallbackKey_words
  obtain ⟨-, -, -, hsr, htf, -⟩ := nextWordReturnsOneRawDraw
  obtain ⟨a, ha, ha0, -⟩ := engineStep_issued_nextWord (s := (reseed (hardReset s)).complete) (c := 0x00000004#32)
    (f := .sr) rfl (by decide)
  obtain ⟨b, hb, hb0, hb1⟩ := engineStep_issued_nextWord (s := (reseed (hardReset s)).complete) (c := 0x00000104#32)
    (f := .tf) rfl (by decide)
  refine ⟨_, a, b, engineStep_hardReset s, ?v, rfl, seedTF_word_zero _, hmt1, hmt2, hmt3, hmt311, rfl,
    congrArg Fin.val (seedTF_idx _), rfl, rfl, rfl, rfl, rfl, rfl, ?ctrl, ?statusAfter, ?statusBefore,
    rfl, rfl, rfl, rfl, rfl, rfl, rfl, ha, ha0.trans hsr, hb, hb1.trans (congrArg high32 htf),
    hb0.trans (congrArg low32 htf)⟩
  case v =>
    change (seedSR [0#64]).v.toList = _
    decide
  case ctrl => exact State.ctrlWord_eq_ite _
  case statusAfter => exact (reseed_resetState_resetRegisters s).regRead_status
  case statusBefore => exact hregs.regRead_status

end Sys2Proof.Machine
end

section
/-! Words and commands (30_encoding.md R91-R94, 20_memory.md R65): an accepted word is put together from its command's
fields, and the lanes of a command's word carry the command. -/

namespace Sys2Proof

/-- The family read from bit 8 has that bit as its FAM (30_encoding.md R94). -/
theorem bit_famOf (c : W32) : (famOf c).bit = c.extractLsb' 8 1 := by
  have hbit : c.extractLsb' 8 1 = BitVec.ofBool (c.getLsbD 8) :=
    BitVec.eq_of_getLsbD_eq fun i hi => by simp [show i = 0 by omega]
  rw [hbit, famOf]
  cases c.getLsbD 8 <;> rfl

/-- A command without family is accepted with its FAM field 0 (30_encoding.md R93). -/
theorem famField_of_familyless {c : W32} {i j : Instr} (h : familyless c i = .ok j) : c.extractLsb' 8 1 = 0#1 := by
  rw [← bit_famOf, famOf, (familyless_ok h).1]
  rfl

/-- The opcode map reads back the two fields of the command it answers (30_encoding.md R91, R93). -/
theorem fields_of_decodeOpcode {c : W32} {i : Instr} (h : decodeOpcode c = .ok i) :
    i.opcode = c.extractLsb' 0 8 ∧ i.famBit = c.extractLsb' 8 1 := by
  unfold decodeOpcode at h
  split at h <;> rename_i hop
  case h_9 => cases h
  case h_1 | h_2 | h_3 | h_8 =>
    obtain ⟨-, rfl⟩ := familyless_ok h
    exact ⟨BitVec.eq_of_toNat_eq hop.symm, (famField_of_familyless h).symm⟩
  all_goals
    injection h with h
    subst h
    exact ⟨BitVec.eq_of_toNat_eq hop.symm, bit_famOf c⟩

/-- A word is its three fields (30_encoding.md R91). -/
theorem fields_append (c : W32) : c.extractLsb' 9 23 ++ c.extractLsb' 8 1 ++ c.extractLsb' 0 8 = c := by
  rw [BitVec.extractLsb'_append_extractLsb'_eq_extractLsb' (by rfl),
    BitVec.extractLsb'_append_extractLsb'_eq_extractLsb' (by rfl), BitVec.extractLsb'_eq_self]

theorem encode_of_decode {c : W32} {i : Instr} (h : decode c = .ok i) : encode i = c := by
  obtain ⟨hrsv, hop⟩ := decode_ok h
  obtain ⟨hopc, hfam⟩ := fields_of_decodeOpcode hop
  rw [encode, hopc, hfam, ← hrsv, fields_append]

/-- The bytes of a word decode as the word does (20_memory.md R65). -/
theorem decodeBytes_lanes {c : W32} {i : Instr} (h : decode c = .ok i) (rest : List Byte) :
    decodeBytes (lane c 0 :: lane c 1 :: lane c 2 :: lane c 3 :: rest) = .ok (i, rest) := by
  simp only [decodeBytes, wordOfLanes_lane, h]

/-- Settles O1: the fields of a word in both directions, and the lanes put together. -/
theorem decodeAndEncodeAgree : Obligations.DecodeAndEncodeAgree :=
  ⟨decode_encode, fun _ _ => encode_of_decode, fun i => decodeBytes_lanes (decode_encode i)⟩

/-- Settles O3, by evaluation of the decoder on the thirteen words. -/
theorem specCommandWordsDecode : Obligations.SpecCommandWordsDecode := by
  unfold Obligations.SpecCommandWordsDecode
  decide

end Sys2Proof
end

section
/-! Who writes the generator units and SEEDBUF (10_state.md R20): what a host access leaves alone, what a command may
write, and the agents a step can be. -/

namespace Sys2Proof.Machine

variable {s t : State}

/-- Settles O18: every case of a register write, and the read data. -/
theorem hostAccessesLeaveResultsAndStores : Obligations.HostAccessesLeaveResultsAndStores := by
  intro s t a h
  obtain ⟨-, -, r, -, ⟨-, rfl⟩ | ⟨-, rfl⟩⟩ := busAccess_next h
  · obtain e | e | e | e | e | e | ⟨-, e⟩ | ⟨-, e⟩ := regWrite_cases r a.wdata s <;> rw [e] <;>
      exact ⟨rfl, rfl, rfl, rfl, rfl, rfl, rfl, rfl, rfl⟩
  · exact ⟨rfl, rfl, rfl, rfl, rfl, rfl, rfl, rfl, rfl⟩

/-- The engine's turn is its step when rst_n is 1, and nothing otherwise (70_reset_and_hazards.md R230). -/
theorem engineTurn_cases (h : engineTurn s = .next t) : t = s ∨ (s.rstN = true ∧ engineStep s = .next t) := by
  unfold engineTurn at h
  split at h
  · exact .inr ⟨‹_›, h⟩
  · injection h with h; exact .inl h.symm

/-- Who can act in a step: the host on its port, the pin rst_n, a Reset(), or the engine out of reset. -/
theorem step_agents (h : step s = .next t) :
    (∃ a es, busAccess a (s.setInputs es) = .next t) ∨ (∃ es b, t = (s.setInputs es).setRstN b) ∨ s.ResetNext ∨
      (s.EngineNext ∧ ∃ es, engineStep (s.setInputs es) = .next t) := by
  obtain ⟨hin, h⟩ | ⟨e, rest, hin, h⟩ := step_cases h
  · obtain rfl | ⟨hrst, h⟩ := engineTurn_cases h
    · exact .inr (.inl ⟨t.inputs, t.rstN, rfl⟩)
    · exact .inr (.inr (.inr ⟨⟨hrst, .inl hin⟩, s.inputs, h⟩))
  cases e with
  | access a => exact .inl ⟨a, rest, h⟩
  | engineTurn =>
    obtain rfl | ⟨hrst, h⟩ := engineTurn_cases h
    · exact .inr (.inl ⟨rest, s.rstN, rfl⟩)
    · exact .inr (.inr (.inr ⟨⟨hrst, .inr ⟨rest, hin⟩⟩, rest, h⟩))
  | rstLow => injection h with h; exact .inr (.inl ⟨rest, false, h.symm⟩)
  | rstHigh =>
    simp only [runEvent] at h
    split at h
    · injection h with h; exact .inr (.inl ⟨rest, s.rstN, h.symm⟩)
    · rename_i hrst
      exact .inr (.inr (.inl (.inr ⟨Bool.eq_false_iff.mpr hrst, rest, hin⟩)))
  | reset => exact .inr (.inr (.inl (.inl ⟨rest, hin⟩)))

/-- The unit of family f is the same in u and v. -/
def Units.SameUnit (f : Fam) (u v : Units) : Prop :=
  match f with
  | .sr => v.sr = u.sr
  | .tf => v.tf = u.tf

theorem Units.SameUnit.of_eq {u v : Units} (f : Fam) (h : v = u) : u.SameUnit f v := by
  subst h
  cases f <;> rfl

theorem Units.sameUnit_withOther {f g : Fam} (hne : f ≠ g) (u o : Units) : o.SameUnit f (u.withOther g o) := by
  match f, g with
  | .sr, .tf => rfl
  | .tf, .sr => rfl
  | .sr, .sr => exact absurd rfl hne
  | .tf, .tf => exact absurd rfl hne

theorem State.withOther_self (s : State) (g : Fam) : s.withOther g s.units = s := by
  cases g <;> rfl

/-- A command of family g commutes with replacing the other unit by itself, so it keeps that unit. -/
theorem exec_keeps_otherUnit {f g : Fam} (hne : f ≠ g) {i : Instr} (hi : i ∈ familyCommands g)
    (h : exec i s = .next t) : s.units.SameUnit f t.units := by
  have hcomm := exec_withOther g s.units hi s
  rw [s.withOther_self, h] at hcomm
  injection hcomm with ht
  rw [ht]
  exact Units.sameUnit_withOther hne _ _

theorem State.pushSeed_units (s : State) (w : W64) : (s.pushSeed w).units = s.units := by
  unfold State.pushSeed
  split <;> rfl

/-- A command changes the unit of family f only if it is one of that family's or SOFT_RESET (10_state.md R20). -/
theorem exec_unit {i : Instr} (h : exec i s = .next t) (f : Fam) :
    s.units.SameUnit f t.units ∨ i ∈ familyCommands f ++ [.softReset] := by
  have hfam : ∀ g, i ∈ familyCommands g → s.units.SameUnit f t.units ∨ i ∈ familyCommands f ++ [.softReset] :=
    fun g hi => by
      by_cases hfg : f = g
      · exact .inr (List.mem_append_left _ (hfg ▸ hi))
      · exact .inl (exec_keeps_otherUnit hfg hi h)
  obtain ⟨-, rfl⟩ | ⟨-, rfl⟩ | ⟨-, rfl⟩ | ⟨g, hi, -⟩ | ⟨g, hi, -⟩ | ⟨hi, -⟩ := exec_cases h
  · exact .inl (.of_eq f rfl)
  · exact .inl (.of_eq f rfl)
  · exact .inl (.of_eq f (s.pushSeed_units _))
  · exact hfam g (hi ▸ List.mem_cons_self)
  · exact hfam g (List.mem_cons_of_mem _ hi)
  · exact .inr (List.mem_append_right _ (hi ▸ List.mem_cons_self))

/-- A command changes SEEDBUF's entries only if it is SEED_PUSH or SOFT_RESET (log entry 5). -/
theorem exec_seedBuf {i : Instr} (h : exec i s = .next t) :
    t.seedBuf = s.seedBuf ∨ i ∈ [.seedPush, .softReset] := by
  obtain ⟨-, rfl⟩ | ⟨-, rfl⟩ | ⟨hi, -⟩ | ⟨_, -, rfl⟩ | ⟨_, -, hd⟩ | ⟨hi, -⟩ := exec_cases h
  · exact .inl rfl
  · exact .inl rfl
  · exact .inr (by simp [hi])
  · exact .inl rfl
  · obtain ⟨n, -, ⟨r0, r1, rfl⟩ | ⟨e, rfl⟩⟩ := hd <;> exact .inl rfl
  · exact .inr (by simp [hi])

/-- Units and SEEDBUF are the same in both states. -/
def State.SameStores (s t : State) : Prop := t.units = s.units ∧ t.seedBuf = s.seedBuf

/-- How the engine may change a store: by the RESEED, which leaves SEEDBUF, or by a latched command that writes it. -/
def State.EngineWrites (s t : State) : Prop :=
  (s.pending = .reseed ∧ t.seedBuf = s.seedBuf) ∨
    ∃ l i, s.pending = .command l ∧ decode l.word = .ok i ∧
      (∀ f, s.units.SameUnit f t.units ∨ i ∈ familyCommands f ++ [.softReset]) ∧
      (t.seedBuf = s.seedBuf ∨ i ∈ [.seedPush, .softReset])

theorem engineStep_stores (h : engineStep s = .next t) : s.SameStores t ∨ s.EngineWrites t := by
  obtain ⟨-, rfl⟩ | ⟨hp, rfl⟩ | ⟨l, hl, ⟨e, -, rfl⟩ | ⟨i, t', hi, hx, rfl⟩⟩ := engineStep_cases h
  · exact .inl ⟨rfl, rfl⟩
  · exact .inr (.inl ⟨hp, rfl⟩)
  · exact .inl ⟨rfl, rfl⟩
  · have hunit := exec_unit hx
    have hbuf := exec_seedBuf hx
    exact .inr (.inr ⟨l, i, hl, hi, hunit, hbuf⟩)

/-- A step that changes a store is a Reset(), or the engine's turn. -/
theorem step_stores (h : step s = .next t) :
    s.SameStores t ∨ s.ResetNext ∨ (s.EngineNext ∧ s.EngineWrites t) := by
  obtain ⟨a, es, h⟩ | ⟨es, b, rfl⟩ | hreset | ⟨hengine, es, h⟩ := step_agents h
  · obtain ⟨-, -, -, -, -, hbuf, hunits, -, -⟩ := hostAccessesLeaveResultsAndStores _ _ _ h
    exact .inl ⟨hunits, hbuf⟩
  · exact .inl ⟨rfl, rfl⟩
  · exact .inr (.inl hreset)
  · exact (engineStep_stores h).imp_right fun hw => .inr ⟨hengine, hw⟩

/-- Settles O58, by who can change a store in a step. -/
theorem storesChangeOnlyByTheirWriters : Obligations.StoresChangeOnlyByTheirWriters := by
  intro s t h
  obtain ⟨hunits, hbuf⟩ | hreset | ⟨hengine, ⟨hp, hbuf⟩ | ⟨l, i, hl, hi, hunit, hbuf⟩⟩ := step_stores h
  · exact ⟨fun hne => absurd (congrArg Units.sr hunits) hne, fun hne => absurd (congrArg Units.tf hunits) hne,
      fun hne => absurd hbuf hne⟩
  · exact ⟨fun _ => .inl hreset, fun _ => .inl hreset, fun _ => .inl hreset⟩
  · exact ⟨fun _ => .inr ⟨hengine, .inl hp⟩, fun _ => .inr ⟨hengine, .inl hp⟩, fun hne => absurd hbuf hne⟩
  · exact ⟨fun hne => .inr ⟨hengine, .inr ⟨l, i, hl, hi, (hunit .sr).resolve_left hne⟩⟩,
      fun hne => .inr ⟨hengine, .inr ⟨l, i, hl, hi, (hunit .tf).resolve_left hne⟩⟩,
      fun hne => .inr ⟨hengine, l, i, hl, hi, hbuf.resolve_left hne⟩⟩

end Sys2Proof.Machine
end

section
/-! The upper 33 bits of MT[0] are all of it that the twist reads (10_state.md R51). -/

namespace Sys2Proof.Machine

/-- The twist's upper mask keeps bits 63..31 in place. -/
theorem and_upperMask (x : W64) : x &&& 0xFFFFFFFF80000000#64 = x.extractLsb' 31 33 ++ 0#31 := by
  have hmask : (0xFFFFFFFF80000000#64 : W64) = BitVec.allOnes 33 ++ 0#31 := by decide
  have hx : x = x.extractLsb' 31 33 ++ x.extractLsb' 0 31 :=
    (BitVec.extractLsb'_append_extractLsb' (w := 33) (len := 31) (x := x)).symm
  calc x &&& 0xFFFFFFFF80000000#64
      = (x.extractLsb' 31 33 ++ x.extractLsb' 0 31) &&& (BitVec.allOnes 33 ++ 0#31) := by rw [← hx, hmask]
    _ = x.extractLsb' 31 33 ++ 0#31 := by rw [BitVec.and_append, BitVec.and_allOnes, BitVec.and_zero]

/-- Of the word it replaces, the twist reads the upper 33 bits only (41_generators.md R135). -/
theorem twistWord_congr_upper {a b : W64} (h : a.extractLsb' 31 33 = b.extractLsb' 31 33) (nxt mid : W64) :
    twistWord a nxt mid = twistWord b nxt mid := by
  simp only [twistWord, and_upperMask, h]

/-- Settles O36, word by word: an iteration reads words that agree, new words before its own, and word 0's upper bits. -/
theorem twistIgnoresTheLowBitsOfWordZero : Obligations.TwistIgnoresTheLowBitsOfWordZero := by
  intro a b h0 hword
  refine store_ext fun k hk => ?_
  induction k using Nat.strong_induction_on with
  | _ k ih =>
    have hself (nxt mid : W64) : twistWord (readWord a k) nxt mid = twistWord (readWord b k) nxt mid := by
      rcases Nat.eq_zero_or_pos k with rfl | hpos
      · exact twistWord_congr_upper h0 nxt mid
      · rw [hword k hpos hk]
    have hread : ∀ j < 312, j ≠ 0 ∨ 0 < k →
        readWord (loopFrom twistAt 0 k a) j = readWord (loopFrom twistAt 0 k b) j := fun j hj hne => by
      rw [twistPrefix_read a k j hk.le, twistPrefix_read b k j hk.le]
      split
      · exact ih j ‹_› hj
      · exact hword j (by omega) hj
    rw [twist_word a k hk, twist_word b k hk, hself, hread _ (by omega) (by omega), hread _ (by omega) (by omega)]

end Sys2Proof.Machine
end

section
/-! The two sampling commands with legal operands (42_sampler.md R163, R170, R171), and the range of a sample. -/

namespace Sys2Proof.Machine

/-- Settles O44: the operand check passes, and the loop stops at the first accepted word. -/
theorem nextBoundedReturnsTheFirstAcceptedSample : Obligations.NextBoundedReturnsTheFirstAcceptedSample := by
  intro f s l n v hp h1 h2 hn hrej hacc
  rw [exec_nextBounded_of_legal hp h1 h2, runSample_of_accepted hp f placeSample hn
    (fun j hj => (candidate_choosePath h1 _ _).trans (hrej j hj)) ((candidate_choosePath h1 _ _).trans hacc)]
  rfl

/-- Settles O50: the operand check passes, and the loop for the exact product stops at the first accepted word. -/
theorem nextBoundedPairSplitsOneSample : Obligations.NextBoundedPairSplitsOneSample := by
  intro f s l n v hp h0 h0' h1 h1' hprod hn hrej hacc
  have hpos : 1 ≤ l.arg0.toNat * l.arg1.toNat := Nat.mul_pos h0 h1
  rw [exec_nextBoundedPair_of_legal hp h0 h0' h1 h1' hprod, runSample_of_accepted hp f (placePair _) hn
    (fun j hj => (candidate_choosePath hpos _ _).trans (hrej j hj)) ((candidate_choosePath hpos _ _).trans hacc)]
  rfl

/-- A path answers a remainder by the bound, or a masked lane it has compared with the bound (42_sampler.md R160). -/
theorem acceptSpec_lt {b : Nat} (hb : 1 ≤ b) {t v : Nat} {x : W32} (h : acceptSpec b t x = some v) : v < b := by
  have hmod : x.toNat % b < b := Nat.mod_lt _ hb
  unfold acceptSpec at h
  split_ifs at h <;> injection h with h <;> omega

/-- Settles O46: a value comes with the accepted word of a draw within the cap. -/
theorem samplesStayBelowTheBound : Obligations.SamplesStayBelowTheBound := by
  intro cap f tmp b t u u' v n hb _ h
  obtain ⟨k, w, hk, -, hacc, e⟩ | ⟨-, e⟩ := sampleLoop_cases f tmp (candidate (choosePath b t) b) cap 0 u
  · have hres := congrArg Prod.snd (h.symm.trans e)
    injection hres with hres
    injection hres with hv hn
    rw [candidate_choosePath hb] at hacc
    have hlt := acceptSpec_lt hb hacc
    omega
  · exact absurd (congrArg Prod.snd (h.symm.trans e)) nofun

/-- Settles O52: quotient and remainder by b2, which fit in 32 bits, determine v, and v is b2 * i1 + i2. -/
theorem pairDecompositionIsABijection : Obligations.PairDecompositionIsABijection := by
  intro b1 b2 hb1 hb2 hprod
  have hfits : ∀ i, i < b1 ∨ i < b2 → i % 2 ^ 32 = i := fun i hi => by
    have h1 := Nat.le_mul_of_pos_right b1 hb2
    have h2 := Nat.le_mul_of_pos_left b2 hb1
    omega
  have hdiv : ∀ v < b1 * b2, v / b2 < b1 := fun v hv => Nat.div_lt_of_lt_mul (Nat.mul_comm b1 b2 ▸ hv)
  have hmod : ∀ v, v % b2 < b2 := fun v => Nat.mod_lt v hb2
  refine ⟨fun v hv => ?_, fun i1 i2 h1 h2 => ⟨b2 * i1 + i2, ⟨?_, ?_⟩, ?_⟩⟩
  · rw [placePair, BitVec.toNat_ofNat, BitVec.toNat_ofNat, hfits _ (.inl (hdiv v hv)), hfits _ (.inr (hmod v))]
    exact ⟨hdiv v hv, hmod v⟩
  · calc b2 * i1 + i2 < b2 * (i1 + 1) := by rw [Nat.mul_add_one]; omega
      _ ≤ b1 * b2 := by rw [Nat.mul_comm b1]; exact Nat.mul_le_mul_left b2 h1
  · rw [placePair, Nat.mul_add_div hb2, Nat.div_eq_of_lt h2, Nat.mul_add_mod, Nat.mod_eq_of_lt h2, Nat.add_zero]
  · rintro v ⟨hv, hplace⟩
    injection hplace with hq hr
    have hq := congrArg BitVec.toNat hq
    have hr := congrArg BitVec.toNat hr
    rw [BitVec.toNat_ofNat, BitVec.toNat_ofNat, hfits _ (.inl (hdiv v hv)), hfits i1 (.inl h1)] at hq
    rw [BitVec.toNat_ofNat, BitVec.toNat_ofNat, hfits _ (.inr (hmod v)), hfits i2 (.inr h2)] at hr
    rw [← hq, ← hr, Nat.div_add_mod]

end Sys2Proof.Machine
end

section
/-! The sampler is exactly uniform (42_sampler.md R168): adding a constant to the sample word, or to its upper lane,
takes the words whose sample is v to words whose sample is w. -/

namespace Sys2Proof.Machine

/-- The sample words below n whose remainder by m is v. -/
def residueClass (m n v : Nat) : Set W32 := { x | x.toNat < n ∧ x.toNat % m = v }

/-- The sample words whose lower lane the bound b rejects and whose upper lane has the remainder v by m. -/
def upperLaneClass (b m v : Nat) : Set W32 := { x | b ≤ x.toNat % m ∧ x.toNat / 2 ^ 16 % m = v }

/-- Replacing the remainder by m stays below a multiple of m. -/
theorem sub_add_of_residue {m n x v w : Nat} (hm : m ∣ n) (hx : x < n) (hv : x % m = v) (hw : w < m) :
    x - v + w < n ∧ (x - v + w) % m = w := by
  obtain ⟨q, rfl⟩ := hm
  have hq : x / m + 1 ≤ q := Nat.div_lt_of_lt_mul hx
  have hsub : x - v = m * (x / m) := hv ▸ Nat.sub_eq_of_eq_add (Nat.div_add_mod x m).symm
  rw [hsub, Nat.mul_add_mod, Nat.mod_eq_of_lt hw]
  refine ⟨?_, rfl⟩
  calc m * (x / m) + w < m * (x / m + 1) := by rw [Nat.mul_add_one]; omega
    _ ≤ m * q := Nat.mul_le_mul_left m hq

theorem toNat_add_sub {x : W32} {v w : Nat} (hv : v ≤ x.toNat) (hw : x.toNat - v + w < 2 ^ 32) :
    (x + (BitVec.ofNat 32 w - BitVec.ofNat 32 v)).toNat = x.toNat - v + w := by
  simp only [BitVec.toNat_add, BitVec.toNat_sub, BitVec.toNat_ofNat]
  omega

theorem residueClass_ncard_le {m n v w : Nat} (hm : m ∣ n) (hn : n ≤ 2 ^ 32) (hw : w < m) :
    (residueClass m n v).ncard ≤ (residueClass m n w).ncard := by
  refine Set.ncard_le_ncard_of_injOn (· + (BitVec.ofNat 32 w - BitVec.ofNat 32 v)) ?_ (add_left_injective _).injOn
  rintro x ⟨hx, hv⟩
  have hmove := sub_add_of_residue hm hx hv hw
  have hle : v ≤ x.toNat := hv ▸ Nat.mod_le _ _
  change _ < n ∧ _ % m = w
  rwa [toNat_add_sub hle (by omega)]

theorem upperLaneClass_ncard_le {b m v w : Nat} (hm : m ∣ 2 ^ 16) (hw : w < m) :
    (upperLaneClass b m v).ncard ≤ (upperLaneClass b m w).ncard := by
  refine Set.ncard_le_ncard_of_injOn (· + (BitVec.ofNat 32 (2 ^ 16 * w) - BitVec.ofNat 32 (2 ^ 16 * v))) ?_
    (add_left_injective _).injOn
  rintro x ⟨hlow, hv⟩
  obtain ⟨hlt, hres⟩ := sub_add_of_residue hm (x := x.toNat / 2 ^ 16) (by omega) hv hw
  have hle : v ≤ x.toNat / 2 ^ 16 := hv ▸ Nat.mod_le _ _
  have hmove := toNat_add_sub (x := x) (v := 2 ^ 16 * v) (w := 2 ^ 16 * w) (by omega) (by omega)
  have hlane0 : (x.toNat - 2 ^ 16 * v + 2 ^ 16 * w) % 2 ^ 16 = x.toNat % 2 ^ 16 := by omega
  have hlane1 : (x.toNat - 2 ^ 16 * v + 2 ^ 16 * w) / 2 ^ 16 = x.toNat / 2 ^ 16 - v + w := by omega
  change b ≤ _ % m ∧ _ / 2 ^ 16 % m = w
  rw [hmove, hlane1, ← Nat.mod_mod_of_dvd _ hm, hlane0, Nat.mod_mod_of_dvd _ hm]
  exact ⟨hlow, hres⟩

/-- A value below m and below n is the remainder of its own word. -/
theorem residueClass_nonempty {m n v : Nat} (hm : v < m) (hn : v < n) (h : v < 2 ^ 32) :
    (residueClass m n v).Nonempty := by
  refine ⟨BitVec.ofNat 32 v, ?_⟩
  change _ < n ∧ _ % m = v
  rw [BitVec.toNat_ofNat, Nat.mod_eq_of_lt h]
  exact ⟨hn, Nat.mod_eq_of_lt hm⟩

/-- The sample words that the path chosen for b and t accepts with value v. -/
def acceptClass (b t v : Nat) : Set W32 := { x | acceptSpec b t x = some v }

/-- The two paths that take the whole word accept it below the largest multiple of b, which is 2^32 for a power of two
(42_sampler.md R164, R166). -/
theorem acceptClass_whole {b t : Nat} (hb : 1 ≤ b) (hb' : b < 2 ^ 31) (h : b &&& (b - 1) = 0 ∨ t ≤ b) (v : Nat) :
    acceptClass b t v = residueClass b (2 ^ 32 / b * b) v := by
  ext x
  change acceptSpec b t x = some v ↔ x.toNat < 2 ^ 32 / b * b ∧ x.toNat % b = v
  by_cases hpow : b &&& (b - 1) = 0
  · obtain ⟨k, rfl⟩ := (Nat.and_sub_one_eq_zero_iff_isPowerOfTwo (Nat.ne_of_gt hb)).1 hpow
    have hk : k < 31 := (Nat.pow_lt_pow_iff_right (by decide)).1 hb'
    rw [Nat.div_mul_cancel (Nat.pow_dvd_pow 2 (by omega)), acceptSpec, if_pos hpow, Option.some_inj]
    exact (and_iff_right x.isLt).symm
  · have hge : ¬ b < t := (h.resolve_left hpow).not_gt
    simp only [acceptSpec, hpow, hge, if_false, Option.ite_none_right_eq_some, Option.some_inj]

/-- The small path accepts by the lower lane's remainder, or by the upper lane's when the lower one's is too large
(42_sampler.md R165). -/
theorem acceptClass_small {b t v : Nat} (h : b &&& (b - 1) ≠ 0) (hlt : b < t) (hm : 2 ^ Nat.size (b - 1) ∣ 2 ^ 16)
    (hv : v < b) : acceptClass b t v =
      residueClass (2 ^ Nat.size (b - 1)) (2 ^ 32) v ∪ upperLaneClass b (2 ^ Nat.size (b - 1)) v := by
  ext x
  change acceptSpec b t x = some v ↔ (x.toNat < 2 ^ 32 ∧ x.toNat % 2 ^ Nat.size (b - 1) = v) ∨
    (b ≤ x.toNat % 2 ^ Nat.size (b - 1) ∧ x.toNat / 2 ^ 16 % 2 ^ Nat.size (b - 1) = v)
  simp only [acceptSpec, h, hlt, if_true, if_false, Nat.mod_mod_of_dvd _ hm, x.isLt, true_and]
  split_ifs
  · rw [Option.some_inj]; omega
  · rw [Option.some_inj]; omega
  · exact iff_of_false not_false (by omega)

/-- A bound below a legal threshold needs at most 16 bits. -/
theorem two_pow_size_dvd {b t : Nat} (hlt : b < t) (ht : t ≤ 0x10000) : 2 ^ Nat.size (b - 1) ∣ 2 ^ 16 :=
  Nat.pow_dvd_pow 2 (Nat.size_le.2 (by omega))

theorem disjoint_residueClass_upperLaneClass {b m n v : Nat} (hv : v < b) :
    Disjoint (residueClass m n v) (upperLaneClass b m v) :=
  Set.disjoint_left.2 fun _ ⟨_, hres⟩ ⟨hlow, _⟩ => by omega

section Legal

variable {b t v w : Nat} (hb : 1 ≤ b) (hb' : b ≤ 2 ^ 31 - 1) (ht : t ≤ 0x10000) (hv : v < b)
include hb hb' ht hv

theorem acceptClass_ncard_le (hw : w < b) : (acceptClass b t v).ncard ≤ (acceptClass b t w).ncard := by
  by_cases h : b &&& (b - 1) = 0 ∨ t ≤ b
  · rw [acceptClass_whole hb (by omega) h, acceptClass_whole hb (by omega) h]
    exact residueClass_ncard_le (Nat.dvd_mul_left b _) (Nat.div_mul_le_self _ _) hw
  · obtain ⟨hpow, hlt⟩ := not_or.mp h
    have hm := two_pow_size_dvd (not_le.mp hlt) ht
    obtain ⟨-, -, hhigh⟩ := between_pow_size hb hpow
    rw [acceptClass_small hpow (not_le.mp hlt) hm hv, acceptClass_small hpow (not_le.mp hlt) hm hw,
      Set.ncard_union_eq (disjoint_residueClass_upperLaneClass hv),
      Set.ncard_union_eq (disjoint_residueClass_upperLaneClass hw)]
    exact Nat.add_le_add (residueClass_ncard_le (hm.trans (by decide)) le_rfl (hw.trans hhigh))
      (upperLaneClass_ncard_le hm (hw.trans hhigh))

/-- Every value below the bound is the sample of its own word. -/
theorem acceptClass_nonempty : (acceptClass b t v).Nonempty := by
  by_cases h : b &&& (b - 1) = 0 ∨ t ≤ b
  · rw [acceptClass_whole hb (by omega) h]
    have hone : 1 ≤ 2 ^ 32 / b := (Nat.one_le_div_iff hb).2 (by omega)
    exact residueClass_nonempty hv (hv.trans_le (Nat.le_mul_of_pos_left b hone)) (by omega)
  · obtain ⟨hpow, hlt⟩ := not_or.mp h
    obtain ⟨-, -, hhigh⟩ := between_pow_size hb hpow
    rw [acceptClass_small hpow (not_le.mp hlt) (two_pow_size_dvd (not_le.mp hlt) ht) hv]
    exact .inl (residueClass_nonempty (hv.trans hhigh) (by omega) (by omega))

end Legal

/-- Settles O47: for any two values each class has at most as many words as the other. -/
theorem samplerIsExactlyUniform : Obligations.SamplerIsExactlyUniform := by
  intro b t v w hb hb' ht hv hw
  simp only [candidate_choosePath hb]
  exact ⟨le_antisymm (acceptClass_ncard_le hb hb' ht hv hw) (acceptClass_ncard_le hb hb' ht hw hv),
    (Set.ncard_pos (Set.toFinite _)).2 (acceptClass_nonempty hb hb' ht hv)⟩

end Sys2Proof.Machine
end

section
/-! The state after reset and SOFT_RESET (70_reset_and_hazards.md R231, 10_state.md R48, 43_control.md R193). -/

namespace Sys2Proof.Machine

/-- Settles O4: the registers of State.reset, with STATUS showing the pending RESEED as BUSY. -/
theorem resetLeavesTheSpecValues : Obligations.ResetLeavesTheSpecValues := by
  have hregs : State.reset.ResetRegisters := by constructor <;> rfl
  exact ⟨hregs, rfl, rfl, hregs.regRead_status⟩

/-- Settles O56: the registers of State.reset are in range, and BUSY is 1 with the RESEED pending. -/
theorem resetMeetsTheInvariants : Obligations.ResetMeetsTheInvariants := by
  have hregs : State.reset.RegistersInRange := by
    unfold State.RegistersInRange
    decide
  exact .of_parts hregs ⟨by simp [State.reset], by simp [State.reset]⟩

/-- Settles O59: ResetState and the seeding leave the three fields, and a hardware reset with its RESEED ends in the
same state but for the pin. -/
theorem softResetKeepsPinPortAndEvents : Obligations.SoftResetKeepsPinPortAndEvents :=
  fun s => ⟨reseed (resetState s), rfl, rfl, rfl, rfl,
    (engineStep_hardReset s).trans (congrArg _ (reseed_hardReset_complete s))⟩

end Sys2Proof.Machine
end

section
/-! An address outside the window (20_memory.md R61), and the fields of STATUS (10_state.md R35). -/

namespace Sys2Proof.Machine

/-- Settles O13: with rst_n = 1 the window check comes next. -/
theorem addressesOutsideTheWindowFault : Obligations.AddressesOutsideTheWindowFault := by
  intro s a rest hrst hin haddr
  have hwin : inWindow a.addr = false := by
    rw [inWindow, Config.windowBytes, Bool.and_eq_false_iff, decide_eq_false_iff_not, decide_eq_false_iff_not]
    omega
  rw [step_access hin]
  simp only [busAccess, State.setInputs_rstN, hrst, hwin]
  rfl

/-- A slice that starts above the low part is a slice of the high part. -/
theorem extractLsb'_append_add {m n : Nat} (x : BitVec m) (y : BitVec n) (k len : Nat) :
    (x ++ y).extractLsb' (n + k) len = x.extractLsb' k len :=
  BitVec.eq_of_getLsbD_eq fun i _ => by
    rw [BitVec.getLsbD_extractLsb', BitVec.getLsbD_extractLsb', BitVec.getLsbD_append, if_neg (by omega),
      Nat.add_assoc, Nat.add_sub_cancel_left]

theorem extractLsb'_append_low {m n : Nat} (x : BitVec m) (y : BitVec n) : (x ++ y).extractLsb' 0 n = y :=
  BitVec.eq_of_getLsbD_eq fun i hi => by
    rw [BitVec.getLsbD_extractLsb', BitVec.getLsbD_append, Nat.zero_add, if_pos hi, decide_eq_true hi, Bool.true_and]

/-- STATUS above BUSY and ERR, then above the reserved bits, ERRCODE and SEED_TRUNC (10_state.md R35). -/
theorem State.statusWord_extractLsb' (s : State) (k len : Nat) :
    s.statusWord.extractLsb' (2 + k) len =
      (0#23 ++ BitVec.ofBool s.seedTrunc ++ s.errCode ++ 0#2).extractLsb' k len := by
  rw [State.statusWord, show 2 + k = 1 + (1 + k) by omega, extractLsb'_append_add, extractLsb'_append_add]

/-- Settles O15: the two low flags, then slice by slice upwards. -/
theorem statusWordFields : Obligations.StatusWordFields := by
  refine fun s => ⟨?busy, ?err, ?reserved, ?errCode, ?seedTrunc, ?high⟩
  case busy => simp only [State.statusWord, BitVec.getLsbD_append, BitVec.getLsbD_ofBool]; rfl
  case err => simp only [State.statusWord, BitVec.getLsbD_append, BitVec.getLsbD_ofBool]; rfl
  case seedTrunc => simp only [State.statusWord, BitVec.getLsbD_append, BitVec.getLsbD_ofBool]; rfl
  case reserved => exact (s.statusWord_extractLsb' 0 2).trans (extractLsb'_append_low _ _)
  case errCode =>
    exact (s.statusWord_extractLsb' 2 4).trans ((extractLsb'_append_add _ _ 0 4).trans (extractLsb'_append_low _ _))
  case high =>
    calc s.statusWord.extractLsb' 9 23
        = (0#23 ++ BitVec.ofBool s.seedTrunc ++ s.errCode ++ 0#2).extractLsb' (2 + 5) 23 :=
          s.statusWord_extractLsb' 7 23
      _ = (0#23 ++ BitVec.ofBool s.seedTrunc ++ s.errCode).extractLsb' (4 + 1) 23 := extractLsb'_append_add ..
      _ = (0#23 ++ BitVec.ofBool s.seedTrunc).extractLsb' (1 + 0) 23 := extractLsb'_append_add ..
      _ = 0#23 := (extractLsb'_append_add ..).trans BitVec.extractLsb'_eq_self

end Sys2Proof.Machine
end

section
/-! The engine's turn as exec of the decoded command (43_control.md R191). -/

namespace Sys2Proof.Machine

theorem completeOutcome_eq_mapNext (o : Host.Outcome State Fault Refusal) :
    completeOutcome o = mapNext State.complete o := by
  cases o <;> rfl

/-- The engine step of a latched legal word, as one equation (43_control.md R191). -/
theorem engineStep_eq_exec {s : State} {l : Latch} {i : Instr} (hp : s.pending = .command l)
    (hd : decode l.word = .ok i) : engineStep s = mapNext State.complete (exec i (s.setLastDraws 0)) := by
  rw [engineStep_latched hp, completeOutcome_eq_mapNext, runWord, hd]

/-- Settles O22: the engine's turn, with the event taken off or none left, is the engine step of the latched word. -/
theorem stepRunsTheDecodedCommand : Obligations.StepRunsTheDecodedCommand := by
  refine fun s l i rest hrst hp hd => ⟨fun hin => ?_, fun hin => ?_⟩
  · exact (step_engineTurn hrst hin).trans (engineStep_eq_exec (s := s.setInputs rest) hp hd)
  · exact (step_of_noEvents hrst hin).trans (engineStep_eq_exec hp hd)

end Sys2Proof.Machine
end
